-- ==== Sys2Proof/Word.lean ====
section
/-! DEFINITION. The word types of the KGM-4816 and the plainest helpers on them (R7: bit 0 is the least significant bit). -/
namespace Sys2Proof

/-- One byte of any memory of the module (R7). -/
abbrev Byte := BitVec 8

/-- One 32-bit register word (R11). -/
abbrev W32 := BitVec 32

/-- One 64-bit scalar register, object value or key (R158, R219, R150). -/
abbrev W64 := BitVec 64

/-- A table keyed by numbers, in strictly rising key order; a key that is absent stands for the
value the reader of the table names (a register's reset value, an empty slot, zero). -/
abbrev Map (α : Type) := List (Nat × α)

/-- Bits [hi:lo] of a number. -/
def bitsOf (w hi lo : Nat) : Nat := w / 2 ^ lo % 2 ^ (hi - lo + 1)

/-- Bit `k` of a number. -/
def bitOf (w k : Nat) : Bool := w / 2 ^ k % 2 == 1

/-- A number read as an n-bit two's-complement integer. -/
def signedOf (n w : Nat) : Int :=
  if w % 2 ^ n < 2 ^ (n - 1) then (w % 2 ^ n : Int) else (w % 2 ^ n : Int) - 2 ^ n

/-- An integer as an n-bit two's-complement code. -/
def codeOf (n : Nat) (i : Int) : Nat := (i % (2 ^ n : Int)).toNat

end Sys2Proof
end

