-- ==== Sys2Proof/Types.lean ====
section
/-! DEFINITION. The operand types of the commands: who asks (R92, R221), fabric messages and flits
(R313, R336, R360, R365), management peers (R456). -/
namespace Sys2Proof

/-- One of the four cores (R20). -/
abbrev CoreId := Fin 4

/-- A DMA channel by its fabric flow number (R361): 8c + k is channel k of core c, 32 + k the
module-wide channel k. -/
abbrev ChanId := Fin 40

/-- One of the 24 Ickor ports (R330). -/
abbrev PortId := Fin 24

/-- A requester that has selectors of its own (R92, R221): a core's control core, a PCI Express
function (0 the physical function, 1 to 64 the virtual functions), or Vesper. -/
inductive Req where
  | core (c : CoreId)
  | func (port : Fin 2) (fn : Fin 65)
  | vesper
  deriving DecidableEq, Repr

/-- The transaction header of R365, as fields. -/
structure TxnHdr where
  ttype : Nat
  status : Nat
  tag : Nat
  addr : Nat
  lenm1 : Nat
  aop : Nat
  deriving DecidableEq, Repr

/-- A sub-reply of R367: header fields with the data it carries. -/
structure SubReply where
  tag : Nat
  status : Nat
  lenm1 : Nat
  data : List Byte
  deriving DecidableEq, Repr

/-- The reduction header of R313 with its map and elements. -/
structure RedMsg where
  step : Nat
  type : Nat
  chan : Nat
  bucket : Nat
  src : Nat
  home : Nat
  wide : Bool
  map : Option (List Nat)
  cause : Nat
  scale : Nat
  epoch : Nat
  tmax : Int
  count : Nat
  elems : List Int
  /-- The wrong elements of a RETRACT; empty otherwise. -/
  wrong : List Int
  deriving DecidableEq, Repr

/-- What follows the envelope of R360. -/
inductive Body where
  | txn (h : TxnHdr) (data : List Byte)
  | reply (ttype : Nat) (subs : List SubReply)
  | red (r : RedMsg)
  | mgmt (data : List Byte)
  | other (data : List Byte)
  deriving DecidableEq, Repr

/-- A whole fabric message: its routing fields (R336), its envelope (R360) and its body. -/
structure Msg where
  src : Nat
  dest : Nat
  vc : Nat
  flow : Nat
  kind : Nat
  sinc : Nat
  fseq : Nat
  /-- The flits of the message that carry POISON, by position (R372). -/
  bad : List Nat
  body : Body
  deriving DecidableEq, Repr

/-- A received flit (R336): 256 bytes, and what the FEC decoder did with it (R332): whether it marked the flit bad, and the
symbols corrected and the uncorrectable codewords that it counted with the flit. -/
structure Flit where
  bytes : List Byte
  fecBad : Bool
  fecCorr : Nat
  fecUnc : Nat
  deriving DecidableEq, Repr

/-- A path on which SPDM, MCTP or PLDM reaches Vesper (R456, R461). -/
inductive Path where
  | ethernet
  | smbus
  | doe (port : Fin 2)
  deriving DecidableEq, Repr

/-- A register of a function's configuration space that the host interface's rules act on (R425 to R428, R436): Bus Master Enable,
the payload and read-request sizes, the power state, MSI-X Enable and Function Mask, VF Enable and NumVFs, the sizes of BAR2
(Resizable BAR, and VF Resizable BAR), what it advertises, and any other by its offset. -/
inductive CfgReg where
  | busMaster
  | payload
  | readRequest
  | powerState
  | msixEnable
  | msixMask
  | vfEnable
  | numVfs
  | barSize
  | vfBarSize
  | capabilities
  | other (off : Nat)
  deriving DecidableEq, Repr

/-- A configuration request: the register, and what it writes, or none for a read (R449). -/
structure CfgReq where
  reg : CfgReg
  write : Option W32
  deriving DecidableEq, Repr

/-- A non-posted request to a memory window (R430): a read of so many bytes, or one that is neither a read nor a write. -/
inductive WinReq where
  | read (len : Nat)
  | other
  deriving DecidableEq, Repr

/-- The board's supply as it is seen: the input voltage in mV (R475), and whether REFCLK156 is there (R514). -/
structure Supply where
  mv : Nat
  refclk156 : Bool
  deriving DecidableEq, Repr

/-- A UDP datagram: the port that it is sent to, and its payload (R461). -/
structure Datagram where
  port : BitVec 16
  data : List Byte
  deriving DecidableEq, Repr

/-- An SMBus packet: the address that it is sent to, and its bytes (R461). -/
structure SmbPacket where
  addr : BitVec 7
  data : List Byte
  deriving DecidableEq, Repr

/-- The component that an update begins to write (R465): its number, and in recovery the slot of a bundle (R448), B or A. -/
structure CompChoice where
  comp : Nat
  slotB : Bool
  deriving DecidableEq, Repr

/-- One request of the control core's instruction kinds that name an engine queue (R162). -/
inductive Queue where
  | matrix
  | vector
  | dma
  | reduce
  deriving DecidableEq, Repr

/-- The queue code of R162. -/
def Queue.code : Queue → Nat
  | .matrix => 0
  | .vector => 1
  | .dma => 2
  | .reduce => 3

/-- The kinds of memory error site: HBM frame, LP5X extent, a core's or slice memory, or a core's queues, tile
registers, task
slots and register state, which hold no data (R409, R410). -/
inductive ErrSite where
  | hbm (stack : Fin 8)
  | lp5x (package : Fin 32)
  | coreMem (c : CoreId)
  | shared
  | register (c : CoreId)
  deriving DecidableEq, Repr

end Sys2Proof
end

