-- ==== Sys2Proof/Syntax.lean ====
section
/-! DEFINITION. The commands of the block: one constructor per row of spec/opcode_table.json, in its order. -/
namespace Sys2Proof

/-- A command (the block's "instruction"). Each docstring is the table's rule and summary. -/
inductive Instr where
  /-- R447: Vesper's rails reach regulation; Vesper leaves reset and the boot begins at stage ROM. -/
  | powerGood
  /-- R512: MOD_EN goes high with the input at 40.0 V or above; inrush begins, delayed to 100 ms after a recent fall. -/
  | modEnRise (v : Supply)
  /-- R513: MOD_EN falls; PWRGOOD_OUT drops, every rail goes off and the module is OFF with HBM and LP5X contents lost. -/
  | modEnFall
  /-- R513: Input power is lost; acts as MOD_EN falling, after the trip if the input passes 36.0 V for 200 µs. -/
  | inputPowerLoss (through36 : Bool)
  /-- R448: Stage ROM reads the fuses and the boot-state sector, chooses the slot, advances the boot count and
releases PWRGOOD_OUT. -/
  | stageRom
  /-- R453: Stage PUF reconstructs the identity seed and derives the identity key, logging IDFAIL on failure. -/
  | stagePuf (array : List Byte)
  /-- R446: Stage VIMG checks and runs the Vesper image and starts the management network, falling back on failure. -/
  | stageVimg (straps : BitVec 3)
  /-- R451: Stage CFG checks the configuration record copies and loads every cfg field, logging CFGFAIL when no copy
is valid. -/
  | stageCfg
  /-- R416: Stage LOG applies standing logbook entries and derives frame, extent and core counts. -/
  | stageLog
  /-- R446: Stage IMG checks the Gnomon and Meridian images, falling back to the other slot on failure. -/
  | stageImg
  /-- R447: Stage GNOMON loads Gnomon firmware, self-calibrates, trains LP5X and plans Gnomon and LP5X margins. -/
  | stageGnomon (failedTrims : List Nat)
  /-- R449: Stage HOST enables both PCI Express ports, which then train and answer with retry status. -/
  | stageHost
  /-- R448: Boot completes; a trial slot is confirmed and its COMMIT actions apply, and AUTOSTART starts Meridian. -/
  | stageReady
  /-- R448: A trial slot has not reached READY 2,000 ms after power good and is marked failed. -/
  | trialTimeout
  /-- R163: Control-core NOP does nothing for one core cycle. -/
  | nop (c : CoreId)
  /-- R163: ALU fn 0 writes rs1 + rs2 modulo 2^64. -/
  | aluAdd (c : CoreId) (rd rs1 rs2 : BitVec 6)
  /-- R163: ALU fn 1 writes rs1 - rs2. -/
  | aluSub (c : CoreId) (rd rs1 rs2 : BitVec 6)
  /-- R163: ALU fn 2 writes the bitwise and. -/
  | aluAnd (c : CoreId) (rd rs1 rs2 : BitVec 6)
  /-- R163: ALU fn 3 writes the bitwise or. -/
  | aluOr (c : CoreId) (rd rs1 rs2 : BitVec 6)
  /-- R163: ALU fn 4 writes the bitwise exclusive or. -/
  | aluXor (c : CoreId) (rd rs1 rs2 : BitVec 6)
  /-- R163: ALU fn 5 shifts rs1 left by the low 6 bits of rs2. -/
  | aluShl (c : CoreId) (rd rs1 rs2 : BitVec 6)
  /-- R163: ALU fn 6 shifts rs1 right logically. -/
  | aluShr (c : CoreId) (rd rs1 rs2 : BitVec 6)
  /-- R163: ALU fn 7 shifts rs1 right arithmetically. -/
  | aluSar (c : CoreId) (rd rs1 rs2 : BitVec 6)
  /-- R163: ALU fn 8 writes 1 when rs1 < rs2 signed. -/
  | aluSlt (c : CoreId) (rd rs1 rs2 : BitVec 6)
  /-- R163: ALU fn 9 writes 1 when rs1 < rs2 unsigned. -/
  | aluSltu (c : CoreId) (rd rs1 rs2 : BitVec 6)
  /-- R163: ALU fn 10 writes the low 64 bits of the product. -/
  | aluMul (c : CoreId) (rd rs1 rs2 : BitVec 6)
  /-- R163: ALU fn 11 writes the high 64 bits of the unsigned product. -/
  | aluMulhu (c : CoreId) (rd rs1 rs2 : BitVec 6)
  /-- R163: ALU fn 12 writes the high 64 bits of the signed product. -/
  | aluMulh (c : CoreId) (rd rs1 rs2 : BitVec 6)
  /-- R164: ALU fn 13 divides signed toward zero in 66 cycles, with defined results for zero and overflow. -/
  | aluDiv (c : CoreId) (rd rs1 rs2 : BitVec 6)
  /-- R164: ALU fn 14 divides unsigned, giving all ones on division by zero. -/
  | aluDivu (c : CoreId) (rd rs1 rs2 : BitVec 6)
  /-- R164: ALU fn 15 writes the signed remainder, the dividend on division by zero. -/
  | aluRem (c : CoreId) (rd rs1 rs2 : BitVec 6)
  /-- R164: ALU fn 16 writes the unsigned remainder. -/
  | aluRemu (c : CoreId) (rd rs1 rs2 : BitVec 6)
  /-- R163: ALU fn 17 writes the signed minimum. -/
  | aluMin (c : CoreId) (rd rs1 rs2 : BitVec 6)
  /-- R163: ALU fn 18 writes the signed maximum. -/
  | aluMax (c : CoreId) (rd rs1 rs2 : BitVec 6)
  /-- R163: ALU fn 19 writes the unsigned minimum. -/
  | aluMinu (c : CoreId) (rd rs1 rs2 : BitVec 6)
  /-- R163: ALU fn 20 writes the unsigned maximum. -/
  | aluMaxu (c : CoreId) (rd rs1 rs2 : BitVec 6)
  /-- R163: Adds a sign-extended 12-bit immediate to rs1. -/
  | addi (c : CoreId) (rd rs1 : BitVec 6) (imm : BitVec 12)
  /-- R163: Ands rs1 with a sign-extended immediate. -/
  | andi (c : CoreId) (rd rs1 : BitVec 6) (imm : BitVec 12)
  /-- R163: Ors rs1 with a sign-extended immediate. -/
  | ori (c : CoreId) (rd rs1 : BitVec 6) (imm : BitVec 12)
  /-- R163: Exclusive-ors rs1 with a sign-extended immediate. -/
  | xori (c : CoreId) (rd rs1 : BitVec 6) (imm : BitVec 12)
  /-- R163: Shifts rs1 left by imm12[5:0]. -/
  | shli (c : CoreId) (rd rs1 : BitVec 6) (imm : BitVec 12)
  /-- R163: Shifts rs1 right logically by imm12[5:0]. -/
  | shri (c : CoreId) (rd rs1 : BitVec 6) (imm : BitVec 12)
  /-- R163: Shifts rs1 right arithmetically by imm12[5:0]. -/
  | sari (c : CoreId) (rd rs1 : BitVec 6) (imm : BitVec 12)
  /-- R163: Writes 1 when rs1 is below the sign-extended immediate, signed. -/
  | slti (c : CoreId) (rd rs1 : BitVec 6) (imm : BitVec 12)
  /-- R163: Loads a sign-extended 18-bit immediate into rd. -/
  | li (c : CoreId) (rd : BitVec 6) (imm : BitVec 18)
  /-- R163: Shifts rd left by 16 and ors in imm18[15:0]. -/
  | lus (c : CoreId) (rd : BitVec 6) (imm : BitVec 18)
  /-- R163: Loads one data-memory byte sign-extended, skipped when misaligned or out of range. -/
  | lb (c : CoreId) (rd rs1 : BitVec 6) (imm : BitVec 12)
  /-- R163: Loads one data-memory byte zero-extended. -/
  | lbu (c : CoreId) (rd rs1 : BitVec 6) (imm : BitVec 12)
  /-- R163: Loads two data-memory bytes sign-extended. -/
  | lh (c : CoreId) (rd rs1 : BitVec 6) (imm : BitVec 12)
  /-- R163: Loads two data-memory bytes zero-extended. -/
  | lhu (c : CoreId) (rd rs1 : BitVec 6) (imm : BitVec 12)
  /-- R163: Loads four data-memory bytes sign-extended. -/
  | lw (c : CoreId) (rd rs1 : BitVec 6) (imm : BitVec 12)
  /-- R163: Loads four data-memory bytes zero-extended. -/
  | lwu (c : CoreId) (rd rs1 : BitVec 6) (imm : BitVec 12)
  /-- R163: Loads eight data-memory bytes. -/
  | ld (c : CoreId) (rd rs1 : BitVec 6) (imm : BitVec 12)
  /-- R161: Stores the low byte of rt into data memory, winning any same-cycle write. -/
  | sb (c : CoreId) (rt rs1 : BitVec 6) (imm : BitVec 12)
  /-- R161: Stores the low two bytes of rt into data memory. -/
  | sh (c : CoreId) (rt rs1 : BitVec 6) (imm : BitVec 12)
  /-- R161: Stores the low four bytes of rt into data memory. -/
  | sw (c : CoreId) (rt rs1 : BitVec 6) (imm : BitVec 12)
  /-- R161: Stores eight bytes of rt into data memory. -/
  | sd (c : CoreId) (rt rs1 : BitVec 6) (imm : BitVec 12)
  /-- R168: Issues a 32-bit register read of the local map, after earlier posted writes to that page. -/
  | rdreg (c : CoreId) (rd rs1 : BitVec 6) (imm : BitVec 12)
  /-- R168: Issues a 64-bit register-pair read. -/
  | rdreg64 (c : CoreId) (rd rs1 : BitVec 6) (imm : BitVec 12)
  /-- R167: The value of an RDREG or RDREG64 returns, within 200 core cycles, and is written to rd. -/
  | regreadReturn (c : CoreId) (cycles : Nat)
  /-- R168: Posts a 32-bit register write that reaches its page in program order. -/
  | wrreg (c : CoreId) (rt rs1 : BitVec 6) (imm : BitVec 12)
  /-- R168: Posts a 64-bit register-pair write. -/
  | wrreg64 (c : CoreId) (rt rs1 : BitVec 6) (imm : BitVec 12)
  /-- R163: Branches when rs1 equals rs2. -/
  | beq (c : CoreId) (rs1 rs2 : BitVec 6) (off : BitVec 12)
  /-- R163: Branches when rs1 differs from rs2. -/
  | bne (c : CoreId) (rs1 rs2 : BitVec 6) (off : BitVec 12)
  /-- R163: Branches when rs1 < rs2 signed. -/
  | blt (c : CoreId) (rs1 rs2 : BitVec 6) (off : BitVec 12)
  /-- R163: Branches when rs1 >= rs2 signed. -/
  | bge (c : CoreId) (rs1 rs2 : BitVec 6) (off : BitVec 12)
  /-- R163: Branches when rs1 < rs2 unsigned. -/
  | bltu (c : CoreId) (rs1 rs2 : BitVec 6) (off : BitVec 12)
  /-- R163: Branches when rs1 >= rs2 unsigned. -/
  | bgeu (c : CoreId) (rs1 rs2 : BitVec 6) (off : BitVec 12)
  /-- R163: Writes PC + 1 to rd and jumps by off18. -/
  | jal (c : CoreId) (rd : BitVec 6) (off : BitVec 18)
  /-- R163: Writes PC + 1 to rd and jumps to the masked register target. -/
  | jalr (c : CoreId) (rd rs1 : BitVec 6) (imm : BitVec 12)
  /-- R170: Pushes the command in a register pair into a queue, dropping it with QDROP when the queue is full. -/
  | push (c : CoreId) (q : Queue) (f : Bool) (rd rs1 rs2 : BitVec 6)
  /-- R170: Pushes 16 bytes of data memory as a command into a queue. -/
  | pushm (c : CoreId) (q : Queue) (f : Bool) (rd rs1 rs2 : BitVec 6)
  /-- R171: Writes the named queue's occupancy to rd. -/
  | qdepth (c : CoreId) (q : Queue) (rd : BitVec 6)
  /-- R220: SOP fn 0 reads a synchronisation object's value. -/
  | sopRead (c : CoreId) (rd rs1 rs2 : BitVec 6)
  /-- R218: SOP fn 1 records an add to an object, held to commit. -/
  | sopAdd (c : CoreId) (rd rs1 rs2 : BitVec 6)
  /-- R218: SOP fn 2 records a set of an object, held to commit. -/
  | sopSet (c : CoreId) (rd rs1 rs2 : BitVec 6)
  /-- R167: The result of a SOP returns, within 40 core cycles, and is written to rd. -/
  | sopReturn (c : CoreId) (cycles : Nat)
  /-- R167: Starts a wait of imm18 core cycles, omitted in guarded replay. -/
  | waitcy (c : CoreId) (imm : BitVec 18)
  /-- R167: The WAITCY count runs out and issue resumes. -/
  | waitcyExpire (c : CoreId)
  /-- R163: Writes the core cycles since the task's first instruction to rd. -/
  | rdcyc (c : CoreId) (rd : BitVec 6)
  /-- R163: Ends the task's control program. -/
  | tend (c : CoreId)
  /-- R165: An instruction with a reserved opcode or fn is skipped and logged. -/
  | reservedOpcode (c : CoreId) (word : BitVec 32)
  /-- R166: Execution runs past instruction 16,383, ending the control program and logging PCEND. -/
  | pcend (c : CoreId)
  /-- R187: A matrix NOP is taken and completes. -/
  | matrixNop (c : CoreId)
  /-- R100: A stationary load is taken, checked and queued to the loader for the bank the pointer does not name. -/
  | load (c : CoreId)
  /-- R103: The loader writes the last cube row of a load, after the drain hold, and the load completes. -/
  | loadComplete (c : CoreId) (row : Fin 32)
  /-- R102: A stream command is taken, checked, reads its mask, optionally toggles the bank pointer and schedules its
words. -/
  | stream (c : CoreId)
  /-- R106: A stream word enters cube row 0, carrying any flip, open or close marker. -/
  | streamWordEntry (c : CoreId)
  /-- R105: A cube row takes a stream word, acts on its markers, checks bank and tags and forms block products. -/
  | streamWordRow (c : CoreId) (row : Fin 33)
  /-- R187: The corner cube takes a stream's last word and the stream completes. -/
  | streamComplete (c : CoreId)
  /-- R64: A group-open is taken, clearing the group and setting anchor, mode and checks, waiting for a calibrated anchor. -/
  | gopen (c : CoreId)
  /-- R190: A group-close is taken and makes the group CLOSING, forming a marker word when no word rides. -/
  | gclose (c : CoreId)
  /-- R65: The close marker leaves the array; the checks are evaluated, the close record is written and the group
becomes CLOSED. -/
  | groupClosed (c : CoreId) (g : Fin 4)
  /-- R66: A group release takes a CLOSED group to FREE. -/
  | grel (c : CoreId)
  /-- R201: A matrix command with a reserved OP is skipped and logs BADOP. -/
  | matrixReservedOp (c : CoreId)
  /-- R140: A vector NOP completes when taken, signalling at once when SIG is set. -/
  | vectorNop (c : CoreId)
  /-- R134: Vector elementwise add in FP32 or bf16x2. -/
  | vAdd (c : CoreId)
  /-- R134: Vector elementwise subtract. -/
  | vSub (c : CoreId)
  /-- R134: Vector elementwise multiply. -/
  | vMul (c : CoreId)
  /-- R134: Vector fused multiply-add rounded once. -/
  | vFma (c : CoreId)
  /-- R134: Vector minimum with NaN and signed-zero rules. -/
  | vMin (c : CoreId)
  /-- R134: Vector maximum with NaN and signed-zero rules. -/
  | vMax (c : CoreId)
  /-- R138: Vector absolute value by clearing the sign bit. -/
  | vAbs (c : CoreId)
  /-- R138: Vector negation by inverting the sign bit. -/
  | vNeg (c : CoreId)
  /-- R135: Vector division rounded once. -/
  | vDiv (c : CoreId)
  /-- R135: Vector square root rounded once. -/
  | vSqrt (c : CoreId)
  /-- R135: Vector reciprocal rounded once. -/
  | vRcp (c : CoreId)
  /-- R135: Vector reciprocal square root rounded once. -/
  | vRsqrt (c : CoreId)
  /-- R135: Vector base-2 exponential rounded once. -/
  | vExp2 (c : CoreId)
  /-- R135: Vector base-2 logarithm rounded once. -/
  | vLog2 (c : CoreId)
  /-- R138: Vector floating compare writing 1 or 0 per element. -/
  | vCmp (c : CoreId)
  /-- R138: Vector select by a non-zero selector, copying bits unchanged. -/
  | vSel (c : CoreId)
  /-- R138: Writes the broadcast scalar to every element. -/
  | vMovs (c : CoreId)
  /-- R137: Vector integer add modulo 2^32. -/
  | vIadd (c : CoreId)
  /-- R137: Vector integer subtract. -/
  | vIsub (c : CoreId)
  /-- R137: Vector integer multiply, low 32 bits. -/
  | vImul (c : CoreId)
  /-- R137: Vector bitwise and. -/
  | vAnd (c : CoreId)
  /-- R137: Vector bitwise or. -/
  | vOr (c : CoreId)
  /-- R137: Vector bitwise exclusive or. -/
  | vXor (c : CoreId)
  /-- R137: Vector shift left by the low 5 bits. -/
  | vShl (c : CoreId)
  /-- R137: Vector logical shift right. -/
  | vShr (c : CoreId)
  /-- R137: Vector arithmetic shift right. -/
  | vSar (c : CoreId)
  /-- R137: Vector signed integer compare. -/
  | vIcmp (c : CoreId)
  /-- R137: Vector signed integer minimum. -/
  | vImin (c : CoreId)
  /-- R137: Vector signed integer maximum. -/
  | vImax (c : CoreId)
  /-- R138: Converts FP32 to bf16x2 by R45 or bf16x2 to FP32 exactly. -/
  | vCvt (c : CoreId)
  /-- R41: Quantises FP32 registers into a block format in tile memory, own or given exponent, delivering any
calibration observation. -/
  | vQuant (c : CoreId)
  /-- R306: Quantises FP32 registers into INT16 gradient elements under the bucket scale, marking non-finite values. -/
  | vQgrad (c : CoreId)
  /-- R148: Reads rows of a CLOSED group through the conversion path into registers or a block region. -/
  | vAccrd (c : CoreId)
  /-- R143: Reduces each row by the fixed addition tree. -/
  | vRsum (c : CoreId)
  /-- R144: Reduces each row to its maximum. -/
  | vRmax (c : CoreId)
  /-- R144: Reduces each row to its minimum. -/
  | vRmin (c : CoreId)
  /-- R144: Writes each row's maximum and its lowest position. -/
  | vRargmax (c : CoreId)
  /-- R145: Computes the screened soft maximum of each row. -/
  | vSoftmax (c : CoreId)
  /-- R146: Computes the natural log of each row's soft-maximum probabilities. -/
  | vLogsoftmax (c : CoreId)
  /-- R147: Normalises each row by mean and variance, with optional affine. -/
  | vLayernorm (c : CoreId)
  /-- R147: Normalises each row by its root mean square, with optional scale. -/
  | vRmsnorm (c : CoreId)
  /-- R154: Draws one token per row by the base-2 Gumbel maximum keyed by sequence seed and position. -/
  | vSample (c : CoreId)
  /-- R152: Draws once per lane per register from the lane generators. -/
  | vRand (c : CoreId)
  /-- R153: Re-keys every lane generator with a given task key. -/
  | vRkey (c : CoreId)
  /-- R196: Loads tile-memory elements into registers, widening as the layout requires and checking tags. -/
  | vVld (c : CoreId)
  /-- R196: Stores register elements unchanged into tile memory. -/
  | vVst (c : CoreId)
  /-- R138: A vector command with a reserved operation or layout is skipped and logs OPSKIP. -/
  | vectorReservedOp (c : CoreId)
  /-- R181: A vector command's results become final after its latency; it completes and records any signal. -/
  | vectorComplete (c : CoreId)
  /-- R198: A DMA NOP is taken and completes. -/
  | dmaNop (c : CoreId)
  /-- R199: An XFER reads its descriptor into an empty shadow set, checking it and rejecting it on failure. -/
  | xfer (c : CoreId)
  /-- R201: A DMA command with a reserved OP is skipped and logs BADOP. -/
  | dmaReservedOp (c : CoreId)
  /-- R263: A shadow descriptor moves into the empty active set and its transfer begins. -/
  | descriptorActivate (ch : ChanId)
  /-- R270: A channel issues the read of one row, subject to pacing marks and tags. -/
  | dmaRowIssue (ch : ChanId)
  /-- R272: A row's data arrives and its write, or conversion, is issued. -/
  | dmaRowWrite (ch : ChanId)
  /-- R254: The faulted row's tiles become ready and the transfer resumes from the recorded row. -/
  | transferResume (ch : ChanId)
  /-- R271: The read-back of a transfer's last write returns; it completes and records its row-count signal or
progress add. -/
  | xferComplete (ch : ChanId)
  /-- R271: The read-back after DMA_PROGSTEP rows returns and adds to DMA_PROGOBJ. -/
  | progressAdd (ch : ChanId)
  /-- R226: Read data of a cancelled, faulted or aborted transfer returns and is dropped, freeing its tag. -/
  | latedrop (ch : ChanId)
  /-- R275: DMA_START with START copies the staging image into a module-wide shadow set as a detached transfer. -/
  | detachedStart (r : Req) (k : Fin 8) (abortToo : Bool)
  /-- R276: DMA_START with ABORT stops a detached transfer at its next row boundary and discards a waiting one. -/
  | detachedAbort (r : Req) (k : Fin 8)
  /-- R200: A reduce NOP is taken and completes. -/
  | reduceNop (c : CoreId)
  /-- R308: A CONTRIB is checked and, with room and a final scale, copied as one part into the channel's send buffer. -/
  | contrib (c : CoreId)
  /-- R321: A RETRACT forms wrong and corrected elements from the retained CONTRIB under a new epoch. -/
  | retract (c : CoreId)
  /-- R201: A reduce command with a reserved OP is skipped and logs BADOP. -/
  | reduceReservedOp (c : CoreId)
  /-- R184: A write reaching TR_EB copies the staged tile register into its committed copy. -/
  | trCommit (r : Req) (c : CoreId) (t : BitVec 8) (v : W32)
  /-- R206: A write of SCH_ARM arms an IDLE or FAILED slot with the next arming sequence number. -/
  | schArm (r : Req) (c : CoreId) (slot : BitVec 10)
  /-- R206: A write of a task slot's fields is accepted only while the slot is IDLE or FAILED. -/
  | slotWrite (r : Req) (c : CoreId) (slot : BitVec 10) (word : Fin 16) (v : W32)
  /-- R225: A write of SCH_CANCEL cancels a waiting, running or guarded slot. -/
  | schCancel (r : Req) (c : CoreId) (slot : BitVec 10)
  /-- R225: Every engine of a cancelling core is idle and the slot returns to IDLE. -/
  | cancelComplete (c : CoreId)
  /-- R208: The scheduler dispatches the chosen eligible slot, writing S56 to S59 and resetting banks and tags. -/
  | dispatch (c : CoreId)
  /-- R217: A task that executed TEND and whose commands all finished releases groups, applies held operations,
releases reduce parts and commits. -/
  | taskEnd (c : CoreId)
  /-- R215: After a schedule fault and idle engines, the task restarts in guarded mode with interlocked engines. -/
  | guardedReplay (c : CoreId)
  /-- R216: A guarded replay makes no progress for SCH_HANG cycles; it fails and the slot goes to FAILED. -/
  | replayHang (c : CoreId)
  /-- R224: A qualifying write of a context's ENABLE or KIND takes effect for later dispatches. -/
  | ctxCfgWrite (r : Req) (v : W32)
  /-- R224: Writing CANCEL cancels every armed or running task of the context on every core. -/
  | ctxCancel (r : Req)
  /-- R224: A qualifying write of CTX_SEED takes effect for tasks dispatched afterwards. -/
  | ctxSeedWrite (r : Req) (v : W64)
  /-- R220: A write of SO_VAL sets the selected object immediately. -/
  | soValWrite (r : Req) (v : W64)
  /-- R220: A write of SO_ADD adds to the selected object immediately. -/
  | soAddWrite (r : Req) (v : W64)
  /-- R173: CC_PAGEREQ REQOPEN takes an inactive READY page to OPEN or an active page to CLOSING. -/
  | reqopen (r : Req) (c : CoreId) (page : Fin 4)
  /-- R173: CC_PAGEREQ REQREADY takes an OPEN page to READY. -/
  | reqready (r : Req) (c : CoreId) (page : Fin 4)
  /-- R92: A write of CAL_CFG becomes the selected slot's pending configuration, skipped when out of range. -/
  | calCfgWrite (r : Req) (v : W32)
  /-- R92: A write of CAL_SEED sets the pending seed order, skipped for the reserved code. -/
  | calSeedWrite (r : Req) (v : W32)
  /-- R84: Writing CLRHIST requests a history clear of the slot at the next boundary. -/
  | clrhist (r : Req) (v : W32)
  /-- R86: The calibration block finishes deriving a slot for the new step, putting anchor and exponent in force. -/
  | calDeriveDone (slot : BitVec 14)
  /-- R74: A read of the accumulator debug window returns cells while debug is unlocked, else zero with DBGDENY. -/
  | accDebugRead (c : CoreId) (off : BitVec 23)
  /-- R74: A write to the accumulator debug window is discarded and logged. -/
  | accDebugWrite (c : CoreId) (off : BitVec 23) (v : W32)
  /-- R249: Allocates pages to a context, optionally pinned, after owner, quota, limit, pool and pin checks. -/
  | alloc (r : Req)
  /-- R259: Frees allocated pages after their waiting accesses and migrations end. -/
  | memFree (r : Req)
  /-- R252: Fetches and pins pages after pin-limit and pin-pool checks. -/
  | memPin (r : Req)
  /-- R252: Unpins pages, leaving them in their frames, and recomputes the quota floor. -/
  | memUnpin (r : Req)
  /-- R242: Fetches every LOW tile of the pages into HBM. -/
  | promote (r : Req)
  /-- R243: Writes back dirty tiles and releases the pages' frames. -/
  | demote (r : Req)
  /-- R243: Writes back dirty tiles while keeping the frames. -/
  | writeback (r : Req)
  /-- R257: Sets the placement class of pages. -/
  | setplace (r : Req)
  /-- R259: A memory request with a reserved OP is skipped and logs MEMSKIP. -/
  | memReservedOp (r : Req) (op : BitVec 4)
  /-- R259: A memory request or one of its pages completes, updating status and adding to its object. -/
  | memRequestDone (r : Req)
  /-- R253: A permitted write of Q recomputes the effective quota and floor and may mark the context OVERQ and start
evictions. -/
  | memQuotaWrite (r : Req) (v : W32)
  /-- R253: A permitted write of the allocation limit takes effect at once. -/
  | memLimitWrite (r : Req) (v : W32)
  /-- R240: A Meridian-side access meets a ZERO write or LOW tile and the migration engine starts a fetch or zero-fill. -/
  | tileFault (tile : Nat) (isWrite : Bool) (who : Fin 10)
  /-- R241: A faulted tile becomes ready and the accesses waiting on it are served in order. -/
  | faultServed (tile : Nat)
  /-- R242: The migration engine fetches the next LOW tile of a faulted page in the background. -/
  | backgroundFetch (page : Nat)
  /-- R243: A demotion finishes writing dirty tiles and releases the frame. -/
  | demotionComplete (page : Nat)
  /-- R251: With free frames below MIG_LOWMARK, the migration engine evicts the first candidate page. -/
  | eviction
  /-- R250: Every 2^20 Gnomon cycles page ages advance, starting LP5X-class demotions. -/
  | ageTick
  /-- R257: A context idle for MIG_SEQIDLE ticks has its SEQ pages demoted. -/
  | seqIdle (ctx : BitVec 14)
  /-- R409: A memory returns a corrected error, counted toward retirement. -/
  | correctableError (site : ErrSite) (addr row : Nat)
  /-- R410: A memory returns an uncorrectable error; lines are poisoned, MEMERR is logged and a logbook entry made. -/
  | uncorrectableError (site : ErrSite) (addr : Nat)
  /-- R409: The migration engine scrubs frames and extents once per REL_CEWIN. -/
  | scrub (errors : List (ErrSite × Nat × Nat))
  /-- R430: A host read through the memory window is served as a Gnomon-side access. -/
  | memoryWindowRead (p : Fin 2) (f : Fin 65) (x : Nat) (q : WinReq)
  /-- R430: A host write through the memory window is served as a Gnomon-side access, carrying poison. -/
  | memoryWindowWrite (p : Fin 2) (f : Fin 65) (x : Nat) (data : List Byte) (poison : Bool)
  /-- R431: A non-posted request still unanswered 2 ms after arrival completes with completer abort. -/
  | cplabort (p : Fin 2)
  /-- R283: Gnomon begins the update of the lowest-numbered eligible layer once its reductions, readers and prior
update allow. -/
  | updateStart
  /-- R285: A layer update ends; RDTHR rises by RDCNT and CPYOBJ by 1 after the copy read-backs. -/
  | updateEnd
  /-- R299: UPD_CMD COPY converts an IDLE layer's masters into both copies and adds 1 to CPYOBJ. -/
  | copy (r : Req)
  /-- R300: A write of a layer entry is performed only while the layer is IDLE. -/
  | layerEntryWrite (r : Req) (off : BitVec 12) (v : W32)
  /-- R310: A complete contribution or NOTICE leaves on its channel once lower buckets of the step have been sent. -/
  | contribSend (ch : BitVec 6)
  /-- R311: The member deadline falls; incomplete contributions become NOTICE ABSENT and AGREED slots without
agreement fall back. -/
  | memberDeadline (b : BitVec 12)
  /-- R317: The home applies a CONTRIB: discarded if duplicate, excluded on scale mismatch, else summed and included. -/
  | contribMsg (m : Msg)
  /-- R317: The home excludes the sender of a NOTICE with its cause. -/
  | noticeMsg (m : Msg)
  /-- R321: The home's router subtracts the wrong and adds the corrected elements of an included member. -/
  | retractMsg (m : Msg)
  /-- R319: The home records a proposal and sends AGREE when MEMBERS proposals have arrived. -/
  | proposeMsg (m : Msg)
  /-- R319: HDLWAIT after the first PROPOSE, the home sends AGREE with the maximum received. -/
  | agreeTimeout (b : BitVec 12) (odd : Bool)
  /-- R90: A member takes an AGREE as the slot's Tmax for the step, or keeps it for a pending derivation. -/
  | agreeMsg (m : Msg)
  /-- R320: When a contribution's epoch clears, the member sends its CLEAR behind it. -/
  | clearSend (b : BitVec 12)
  /-- R320: The home marks the member cleared, possibly making the record ready. -/
  | clearMsg (m : Msg)
  /-- R322: A member receives RECEXCL, ending its part and freeing its retained CONTRIB. -/
  | recexclMsg (m : Msg)
  /-- R317: The home deadline falls; unaccounted members are excluded ABSENT and the record is collected. -/
  | homeDeadline (b : BitVec 12) (odd : Bool)
  /-- R387: HDLWAIT after the step began with no message, the home opens the record empty. -/
  | recordOpenEmpty (b : BitVec 12)
  /-- R322: A collected record not ready after EPWAIT is excluded whole and RECEXCL is sent. -/
  | epwaitExpire (b : BitVec 12) (odd : Bool)
  /-- R333: A write of a port's EN starts or stops its training. -/
  | portEnable (r : Req) (p : PortId) (on : Bool) (txeq : BitVec 4)
  /-- R335: Writing RETRAIN returns the port to SIGNAL, keeping its replay buffer. -/
  | retrain (r : Req) (p : PortId)
  /-- R333: Signal is detected on all four lanes and the port moves to ADAPT. -/
  | signalDetect (p : PortId)
  /-- R333: The receiver has adapted and the port moves to ALIGN. -/
  | adaptDone (p : PortId)
  /-- R333: Alignment markers lock with lane order and polarity found, and the port moves to FECLOCK. -/
  | alignLock (p : PortId) (order : BitVec 8) (pol : BitVec 4)
  /-- R334: A TRAIN flit records the far end, checks for a duplicate identifier, and counts toward UP. -/
  | trainFlit (p : PortId) (x : Flit)
  /-- R333: A port not UP within ICK_TRAINTO logs TRAINFAIL and rests in DOWN. -/
  | trainfail (p : PortId)
  /-- R333: After 10 ms in DOWN following TRAINFAIL the port trains again. -/
  | trainRestEnd (p : PortId)
  /-- R335: An UP port loses FEC lock and returns to SIGNAL. -/
  | fecLockLost (p : PortId)
  /-- R339: A DATA flit is accepted when good and in sequence, else a NAK is sent; accepted flits are forwarded or
delivered. -/
  | dataFlit (p : PortId) (x : Flit)
  /-- R337: An IDLE flit delivers its ACK and credit return. -/
  | idleFlit (p : PortId) (x : Flit)
  /-- R339: A NAK causes the transmitter to resend held flits after its ACK, and counts toward the replay limit. -/
  | nakFlit (p : PortId) (x : Flit)
  /-- R337: A flit with reserved FTYPE or set reserved bits is treated as a CRC failure and logs BADFLIT. -/
  | reservedFlit (p : PortId) (x : Flit)
  /-- R345: Each output chooses one flit per Ickor cycle, VC7 first, then weighted round robin. -/
  | flitSend (p : PortId)
  /-- R346: The module offers a message to the fabric, refused without route or identifier or when VC7 is too long or
gapped. -/
  | messageInject (m : Msg)
  /-- R351: A flow held after a route change may use its new port. -/
  | flowholdExpire (p : PortId) (src dest vc flow : Nat)
  /-- R347: A route-table entry is applied in all four routers within 16 Ickor cycles, possibly changing routes. -/
  | ickRtentryWrite (r : Req) (v : W32)
  /-- R328: The orchestrator writes the module identifier and IDVALID while the Ickor page is disabled. -/
  | ickModidWrite (r : Req) (v : W32)
  /-- R366: A target serves a remote READ of up to 256 bytes and answers with a sub-reply. -/
  | read (m : Msg)
  /-- R369: A target performs a remote WRITE and sends WCOMP once it is visible. -/
  | write (m : Msg)
  /-- R369: Remote atomic fetch-and-add on 8 aligned bytes. -/
  | fadd (m : Msg)
  /-- R369: Remote atomic swap. -/
  | swap (m : Msg)
  /-- R369: Remote atomic compare-and-swap. -/
  | cas (m : Msg)
  /-- R369: Remote atomic unsigned maximum. -/
  | umax (m : Msg)
  /-- R369: Remote atomic unsigned minimum. -/
  | umin (m : Msg)
  /-- R367: The requester receives read sub-replies and frees their tags. -/
  | rdata (m : Msg)
  /-- R367: The requester receives write or PNOTICE completions and frees their tags. -/
  | wcomp (m : Msg)
  /-- R364: The requester receives an atomic's old value. -/
  | aresult (m : Msg)
  /-- R374: A remote SOOP adds immediately to an object. -/
  | soopAdd (m : Msg)
  /-- R374: A remote SOOP sets an object immediately. -/
  | soopSet (m : Msg)
  /-- R373: A target poisons every allocated line of the named range and answers WCOMP. -/
  | pnotice (m : Msg)
  /-- R364: A message with reserved KIND or TTYPE is discarded and logs XBADMSG. -/
  | reservedTtype (m : Msg)
  /-- R370: A reply not arrived within TXN_TXTO completes with TIMEOUT, poisoning reads and sending a PNOTICE for writes. -/
  | txtimeout (tag : BitVec 17)
  /-- R370: A timed-out tag returns to the pool a further TXN_TXTO later. -/
  | tagRelease (tag : BitVec 17)
  /-- R375: TXN_ROPCMD OP 0x1 starts a remote fetch-and-add. -/
  | ropFadd (r : Req) (held : Bool)
  /-- R375: TXN_ROPCMD OP 0x2 starts a remote swap. -/
  | ropSwap (r : Req) (held : Bool)
  /-- R375: TXN_ROPCMD OP 0x3 starts a remote compare-and-swap. -/
  | ropCas (r : Req) (held : Bool)
  /-- R375: TXN_ROPCMD OP 0x4 starts a remote unsigned maximum. -/
  | ropUmax (r : Req) (held : Bool)
  /-- R375: TXN_ROPCMD OP 0x5 starts a remote unsigned minimum. -/
  | ropUmin (r : Req) (held : Bool)
  /-- R376: TXN_ROPCMD OP 0x8 sends a SOOP add, or records it as held. -/
  | ropSoopAdd (r : Req) (held : Bool)
  /-- R376: TXN_ROPCMD OP 0x9 sends a SOOP set, or records it as held. -/
  | ropSoopSet (r : Req) (held : Bool)
  /-- R375: A TXN_ROPCMD with reserved OP, while busy or wrongly held, is skipped and logs ROPSKIP. -/
  | ropReserved (r : Req) (v : W32)
  /-- R377: A forwarder whose object reaches THR sends SOOP adds to its targets and adds STEP to THR. -/
  | forwarderFire (fw : BitVec 10)
  /-- R384: Setting the boundary page's EN begins step s0, deriving slots, sending proposals and starting deadlines. -/
  | boundaryEnable (r : Req)
  /-- R382: Software writes the step number while the boundary page is disabled. -/
  | bndStepWrite (r : Req) (v : W64)
  /-- R389: A write of the boundary mode takes effect at the next boundary, skipped for the reserved code. -/
  | bndCtrlWrite (r : Req) (v : W32)
  /-- R390: A write of the hold limit, skipped above 100,000. -/
  | bndHoldWrite (r : Req) (v : W32)
  /-- R393: The boundary falls; the step advances and derivation, commit, proposals, updates, deadlines and the
determinism record follow. -/
  | boundary
  /-- R388: A rising edge on STEPSYNC_IN adds a credit or pays a debt and may bring deadlines forward. -/
  | stepsyncEdge
  /-- R390: A ready module without credit waits BND_HOLD; the boundary falls and a debt is recorded. -/
  | holdExpire
  /-- R391: STEPSYNC_OUT falls after 100 Gnomon cycles high. -/
  | stepsyncOutEnd
  /-- R403: A sampled task's check run restarts on rotated lanes, digesting its writes. -/
  | checkRun (c : CoreId)
  /-- R406: After a failing check line or a mismatch, a deciding run restarts the task. -/
  | decidingRun (c : CoreId)
  /-- R406: The runs of a task end and are classified; held operations of the standing run apply, epochs pass or
fail, PNOTICEs are sent. -/
  | runOutcome (c : CoreId)
  /-- R416: Vesper appends an entry to the logbook, or keeps it when full, and applies withdrawal thresholds. -/
  | logbookWrite
  /-- R417: At each 24-hour period a port whose CRC count rose above REL_LINKMAX is charged an entry. -/
  | linkPeriod
  /-- R418: REL_FTPERIOD hours pass and a core's field test becomes due. -/
  | fieldTestDue (c : CoreId)
  /-- R418: A write of REL_FTREQ makes a field test due for the named cores. -/
  | relFtreq (r : Req) (v : W32)
  /-- R419: A due test starts at the core's task boundary, saving registers and holding dispatch. -/
  | fieldTestStart (c : CoreId)
  /-- R420: A field test ends; a failure reruns it, and two failures withdraw the core. -/
  | fieldTestEnd (c : CoreId) (firstPass secondPass : Bool)
  /-- R419: REL_FTBUDGET passes without a task boundary; the test is deferred to a checkpoint. -/
  | ftBudgetExpire (c : CoreId)
  /-- R419: REL_FTLATE passes without a checkpoint; the test is forced at the next boundary. -/
  | ftLateExpire (c : CoreId)
  /-- R419: A checkpoint write lets a deferred test run at the core's next task boundary. -/
  | relCkpt (r : Req) (v : W32)
  /-- R412: A permitted write sets a context's job number. -/
  | relCtxjobWrite (r : Req) (v : W32)
  /-- R421: Vesper sends a queued event report as a PLDM PlatformEventMessage. -/
  | reportSend
  /-- R434: A write to a bound doorbell queues an add to its object behind earlier posted writes. -/
  | doorbell (p : Fin 2) (f : Fin 65) (d : BitVec 8) (v : W64)
  /-- R434: Earlier posted writes become visible and the doorbell's add takes effect. -/
  | doorbellApply (p : Fin 2)
  /-- R434: A doorbell binding is set, skipped when outside a VF's granted range. -/
  | hifDbobjWrite (p : Fin 2) (f : Fin 65) (v : W32)
  /-- R435: A watch configuration is set, skipped for an object outside range or a vector beyond the table. -/
  | hifWcfgWrite (p : Fin 2) (f : Fin 65) (v : W32)
  /-- R435: A watch whose object reaches THR signals its vector and steps or clears. -/
  | watchFire (p : Fin 2) (f : Fin 65) (w : BitVec 10)
  /-- R436: A signalled unmasked vector, or a pending one on unmasking, is written to the host. -/
  | msixWrite (p : Fin 2) (f : Fin 65) (vec : BitVec 11)
  /-- R437: Writing FEATOK = 1 brings the accepted features into force if they are a subset of the offer. -/
  | featok (p : Fin 2) (f : Fin 65)
  /-- R437: Writing FEATOK = 0 while set turns every feature off and clears HIF_MWBASE. -/
  | featureWithdraw (p : Fin 2) (f : Fin 65)
  /-- R430: A write moves the function's memory-window base, needing MWMOVE. -/
  | hifMwbaseWrite (p : Fin 2) (f : Fin 65) (v : W64)
  /-- R433: HIF_CTXASSIGN assigns a range of idle, disabled contexts to a function. -/
  | ctxAssign (r : Req) (port : Fin 2) (fn : Fin 65)
  /-- R433: HIF_CTXASSIGN with UNASSIGN unassigns a range of contexts. -/
  | ctxUnassign (r : Req)
  /-- R441: Vesper sets which ports may write shared pages; others are discarded. -/
  | hifAdminWrite (r : Req) (v : W32)
  /-- R438: A function-level reset cancels the function's contexts' tasks, returns ownership and clears its bindings
and features. -/
  | functionLevelReset (p : Fin 2) (f : Fin 65)
  /-- R438: A hot reset resets every function of the port and aborts its detached transfers. -/
  | hotReset (p : Fin 2)
  /-- R438: PERST# asserts a conventional reset of the port and all its functions. -/
  | perstAssert (p : Fin 2)
  /-- R438: Clearing VF Enable resets every virtual function of the port. -/
  | vfEnableClear (p : Fin 2)
  /-- R458: VSP_DBGREQ REQ makes a new debug challenge, discarding any earlier one. -/
  | dbgReq (r : Req)
  /-- R460: VSP_DBGREQ LOCK closes every debug scope. -/
  | dbgLock (r : Req)
  /-- R460: VSP_DBGREQ ERASE erases the logbook under the LOGERASE scope. -/
  | dbgErase (r : Req)
  /-- R459: Writing the last token word submits it; it opens scopes or is rejected. -/
  | tokenSubmit (r : Req) (v : W32)
  /-- R458: A debug challenge expires after 10 minutes. -/
  | challengeExpire
  /-- R460: A token's lifetime ends, closing its scopes and clearing DBG on every page. -/
  | scopeExpire
  /-- R455: SPDM GET_VERSION answered with version 1.2. -/
  | spdmGetVersion (path : Path)
  /-- R455: SPDM GET_CAPABILITIES answered. -/
  | spdmGetCapabilities (path : Path)
  /-- R455: SPDM NEGOTIATE_ALGORITHMS answered with SM2 and SM3. -/
  | spdmNegotiateAlgorithms (path : Path) (sm2 sm3 : Bool)
  /-- R455: SPDM GET_DIGESTS answered for slot 0. -/
  | spdmGetDigests (path : Path)
  /-- R455: SPDM GET_CERTIFICATE answered in portions of up to 1,024 bytes. -/
  | spdmGetCertificate (path : Path) (slot off len : Nat)
  /-- R455: SPDM CHALLENGE answered with an identity-key signature. -/
  | spdmChallenge (path : Path) (slot : Nat) (nonce : BitVec 256)
  /-- R457: SPDM GET_MEASUREMENTS answered with SM3 measurements. -/
  | spdmGetMeasurements (path : Path) (index : Nat) (nonce : BitVec 256) (sign : Bool)
  /-- R455: SPDM RESPOND_IF_READY answered. -/
  | spdmRespondIfReady (path : Path) (code token : Nat)
  /-- R455: Any other SPDM request is answered with ERROR UnsupportedRequest. -/
  | spdmUnsupported (path : Path) (code : BitVec 8)
  /-- R461: A UDP datagram with an MCTP packet is taken, discarded when its prefix differs. -/
  | mctpDatagram (d : Datagram)
  /-- R461: An MCTP packet arrives over SMBus under DSP0237. -/
  | smbusPacket (d : SmbPacket)
  /-- R461: An ARP request for the management address is answered. -/
  | arpRequest (addr : W32)
  /-- R461: An ICMP echo request is answered. -/
  | icmpEcho (addr : W32) (data : List Byte)
  /-- R461: A DHCPv4 message is handled when DHCP is set. -/
  | dhcpExchange (leased : W32)
  /-- R462: MCTP Set Endpoint ID assigns Vesper's EID. -/
  | setEndpointId (path : Path) (eid : Byte)
  /-- R462: MCTP Get Endpoint ID answered. -/
  | getEndpointId (path : Path)
  /-- R462: MCTP Get Version Support answered. -/
  | getMctpVersionSupport (path : Path)
  /-- R462: MCTP Get Message Type Support answered. -/
  | getMessageTypeSupport (path : Path)
  /-- R462: MCTP Get Vendor Defined Message Support answered. -/
  | getVendorMessageSupport (path : Path)
  /-- R463: A vendor-defined read request reads a register as Vesper. -/
  | vendorRegRead (path : Path) (addr : Nat)
  /-- R463: A vendor-defined write request writes a register as Vesper. -/
  | vendorRegWrite (path : Path) (addr : Nat) (v : W32)
  /-- R464: PLDM GetTID answered. -/
  | getTid (path : Path)
  /-- R464: PLDM SetTID sets the terminus identifier. -/
  | setTid (path : Path) (tid : Byte)
  /-- R464: PLDM GetPLDMVersion answered. -/
  | getPldmVersion (path : Path) (ty : Nat)
  /-- R464: PLDM GetPLDMTypes answered. -/
  | getPldmTypes (path : Path)
  /-- R464: PLDM GetPLDMCommands answered. -/
  | getPldmCommands (path : Path) (ty : Nat)
  /-- R464: PLDM SetEventReceiver sets where reports are sent. -/
  | setEventReceiver (path : Path) (eid : Byte)
  /-- R464: PLDM GetSensorReading returns a sensor of R480. -/
  | getSensorReading (path : Path) (id : Nat)
  /-- R465: PLDM QueryDeviceIdentifiers answered. -/
  | queryDeviceIdentifiers (path : Path)
  /-- R465: PLDM GetFirmwareParameters answered. -/
  | getFirmwareParameters (path : Path)
  /-- R465: PLDM RequestUpdate begins an update. -/
  | requestUpdate (path : Path)
  /-- R465: PLDM PassComponentTable is accepted, refusing a bundle below the SVN floor. -/
  | passComponentTable (path : Path) (comp svn : Nat)
  /-- R465: PLDM UpdateComponent starts writing a bundle or record copy. -/
  | updateComponent (path : Path) (k : CompChoice) (size : Nat)
  /-- R465: The response to a RequestFirmwareData arrives and its data is written to flash. -/
  | requestFirmwareData (path : Path) (data : List Byte)
  /-- R465: Vesper finishes receiving a component and reports TransferComplete. -/
  | transferComplete (path : Path)
  /-- R465: Vesper verifies the written component by R446 or R451 and reports VerifyComplete. -/
  | verifyComplete (path : Path)
  /-- R465: Vesper finishes applying a component, logs FWUPD and reports ApplyComplete. -/
  | applyComplete (path : Path)
  /-- R465: PLDM ActivateFirmware makes the bundle's slot preferred under trial. -/
  | activateFirmware (path : Path) (selfContained : Bool)
  /-- R465: PLDM GetStatus answered. -/
  | pldmGetStatus (path : Path)
  /-- R465: PLDM CancelUpdateComponent abandons the component. -/
  | cancelUpdateComponent (path : Path)
  /-- R465: PLDM CancelUpdate abandons the update. -/
  | cancelUpdate (path : Path)
  /-- R471: A write of MSTART starts Meridian from OFF or RETAIN. -/
  | mstart (r : Req)
  /-- R471: A write of MSTOP takes Meridian to RETAIN when no work is held. -/
  | mstop (r : Req)
  /-- R471: A write of MOFF takes Meridian to OFF when no work or frame is held. -/
  | moff (r : Req)
  /-- R483: A write of RESTART brings a tripped module back to GNOMON, skipped near limits. -/
  | restart (r : Req)
  /-- R472: Meridian finishes starting and enters RUN, its pages enabled and margins planned. -/
  | meridianStartDone (replicas : Vector (Vector Nat 32) 4) (eyes : Vector Nat 8)
  /-- R470: Meridian reaches RETAIN or OFF and every Ickor port goes DOWN. -/
  | meridianStopDone
  /-- R473: A core idle for PWR_GATEIDLE microseconds is gated. -/
  | coreGate (c : CoreId)
  /-- R473: A gated core wakes for an eligible slot, a test or a window access. -/
  | coreWake (c : CoreId)
  /-- R475: Every 100 µs Vesper samples the input, holding the clock low or tripping. -/
  | vinSample (v : Supply)
  /-- R480: Every 100 µs Vesper reads the sensors against their limits. -/
  | sensorSample (temps : Vector Int 16) (modW merW : Nat)
  /-- R481: Every 1 ms Vesper steps the core clock down when over or up when clear. -/
  | clockStep
  /-- R482: Meridian current above PWR_IPEAK clamps the core clock to 875 MHz. -/
  | clamp (amps : Nat)
  /-- R482: After 1 ms the clamp ends and clock control resumes from 875 MHz. -/
  | clampEnd
  /-- R485: An hour of operation is counted in the almanac. -/
  | hourTick
  /-- R486: Every 24 hours of operation a margin plan sets guard bands and FMAX and appends an almanac entry. -/
  | periodicPlan (replicas : Vector (Vector Nat 32) 4) (eyes : Vector Nat 8)
  /-- R486: A write of ALM_REQ makes a margin plan now. -/
  | almReq (r : Req) (replicas : Vector (Vector Nat 32) 4) (eyes : Vector Nat 8)
  /-- R490: A write of PWR_LIMIT or PWR_MLIMIT, skipped above the sustained limits. -/
  | pwrLimitWrite (r : Req) (meridian : Bool) (v : W32)
  /-- R497: A write of PG_CTRL EN enables or disables a block and locks or unlocks RWL fields. -/
  | pgEn (r : Req) (page : Nat) (v : W32)
  /-- R498: Writing SRST while EN is clear soft-resets the block's page and named state. -/
  | pgSrst (r : Req) (page : Nat) (v : W32)
  /-- R498: The block's named state has been reset and RSTBUSY clears. -/
  | softResetDone (page : Nat)
  /-- R499: Setting DBG while PGDBG is open makes counters and captures writable. -/
  | pgDbg (r : Req) (page : Nat)
  /-- R495: Writing FECLR empties the first-error capture. -/
  | pgFeclr (r : Req) (page : Nat)
  /-- R501: Writing CNTCLR zeroes the page's event counters. -/
  | pgCntclr (r : Req) (page : Nat)
  /-- R501: A W1C write of PG_EVENT clears flags, losing to a same-cycle set. -/
  | eventClear (r : Req) (page : Nat) (v : W32)
  /-- R504: A write to a register with no behaviour of its own is judged by the access checks and applied field by field. -/
  | registerWrite (r : Req) (addr : Nat) (wide : Bool) (v : W64)
  /-- R431: A host read through a function's control window is judged, latches a 64-bit high word, and for a Meridian
page not in RUN returns zero, logs MERIDOFF and starts Meridian. -/
  | controlWindowRead (p : Fin 2) (f : Fin 65) (x : Nat) (wide : Bool)
  /-- R449: A PCI Express configuration request to a function is answered, with Configuration Request Retry Status
before READY or during a reset. -/
  | configurationRequest (p : Fin 2) (f : Fin 65) (q : CfgReq)
  /-- R449: PEn_PERST# deasserts and the port leaves conventional reset, training once stage HOST has begun. -/
  | perstRelease (p : Fin 2) (refclk : Bool)
  /-- R512: The input rises to 40.0 V or above with MOD_EN high, and inrush and power-up begin. -/
  | inputPowerReturn (mv : Nat)
  /-- R456: A data object exchange discovery request (type 0x00) on a physical function is answered. -/
  | doeDiscovery (p : Fin 2) (index : Nat)
  /-- R483: After a trip, the migration engine finishes rewriting the tile table, and LP5X is put in self-refresh and
Gnomon powered down. -/
  | tileTableRewriteDone
  /-- R483: After RESTART, Gnomon is powered and LP5X leaves self-refresh, and the module reaches GNOMON. -/
  | restartDone
  /-- R473: A gated core finishes waking, within 3,500 core cycles, and the held dispatch or window access proceeds. -/
  | coreWakeDone (c : CoreId)
  deriving DecidableEq, Repr

end Sys2Proof
end

