-- ==== Sys2Proof/Decode.lean ====
section
/-! DEFINITION. The command that a word of the opcode table spells: no row of spec/opcode_table.json gives bits, since its rows
are the steps of a block. With it, the control core's instruction words (R162, R163): the command that a 32-bit word spells. -/
namespace Sys2Proof

/-- No row of the table gives bits, so no word spells a command. -/
def decodeTableWord (_nbits _w : Nat) : Option Instr := none

/-! ### Instruction words (R162) -/

/-- The register fields in [13:8], [19:14] and [25:20]. -/
def wordRd (w : BitVec 32) : BitVec 6 := w.extractLsb' 8 6
def wordRs1 (w : BitVec 32) : BitVec 6 := w.extractLsb' 14 6
def wordRs2 (w : BitVec 32) : BitVec 6 := w.extractLsb' 20 6

/-- The 12-bit field in [31:20], the 18-bit field in [31:14], and fn in [31:26]. -/
def wordImm12 (w : BitVec 32) : BitVec 12 := w.extractLsb' 20 12
def wordImm18 (w : BitVec 32) : BitVec 18 := w.extractLsb' 14 18
def wordFn (w : BitVec 32) : Nat := w.toNat / 2 ^ 26

/-- The queue in [27:26], and F in [28]. -/
def wordQueue (w : BitVec 32) : Queue :=
  if w.toNat / 2 ^ 26 % 4 = 0 then .matrix
  else if w.toNat / 2 ^ 26 % 4 = 1 then .vector
  else if w.toNat / 2 ^ 26 % 4 = 2 then .dma
  else .reduce
def wordF (w : BitVec 32) : Bool := w.toNat / 2 ^ 28 % 2 == 1

/-- An ALU word by its fn (R163). -/
def decodeAlu (c : CoreId) (w : BitVec 32) : Instr :=
  let fn := wordFn w
  let rd := wordRd w
  let a := wordRs1 w
  let b := wordRs2 w
  if fn = 0 then .aluAdd c rd a b
  else if fn = 1 then .aluSub c rd a b
  else if fn = 2 then .aluAnd c rd a b
  else if fn = 3 then .aluOr c rd a b
  else if fn = 4 then .aluXor c rd a b
  else if fn = 5 then .aluShl c rd a b
  else if fn = 6 then .aluShr c rd a b
  else if fn = 7 then .aluSar c rd a b
  else if fn = 8 then .aluSlt c rd a b
  else if fn = 9 then .aluSltu c rd a b
  else if fn = 10 then .aluMul c rd a b
  else if fn = 11 then .aluMulhu c rd a b
  else if fn = 12 then .aluMulh c rd a b
  else if fn = 13 then .aluDiv c rd a b
  else if fn = 14 then .aluDivu c rd a b
  else if fn = 15 then .aluRem c rd a b
  else if fn = 16 then .aluRemu c rd a b
  else if fn = 17 then .aluMin c rd a b
  else if fn = 18 then .aluMax c rd a b
  else if fn = 19 then .aluMinu c rd a b
  else if fn = 20 then .aluMaxu c rd a b
  else .reservedOpcode c w

/-- A word whose opcode is below 0x30: NOP, ALU, immediates and constants (R163). -/
def decodeScalar (c : CoreId) (w : BitVec 32) : Instr :=
  let op := w.toNat % 256
  let rd := wordRd w
  let a := wordRs1 w
  let i := wordImm12 w
  if op = 0x01 then .nop c
  else if op = 0x10 then decodeAlu c w
  else if op = 0x11 then .addi c rd a i
  else if op = 0x12 then .andi c rd a i
  else if op = 0x13 then .ori c rd a i
  else if op = 0x14 then .xori c rd a i
  else if op = 0x15 then .shli c rd a i
  else if op = 0x16 then .shri c rd a i
  else if op = 0x17 then .sari c rd a i
  else if op = 0x18 then .slti c rd a i
  else if op = 0x20 then .li c rd (wordImm18 w)
  else if op = 0x21 then .lus c rd (wordImm18 w)
  else .reservedOpcode c w

/-- A word whose opcode is 0x30 to 0x3F: memory and registers (R163). -/
def decodeAccess (c : CoreId) (w : BitVec 32) : Instr :=
  let op := w.toNat % 256
  let rd := wordRd w
  let a := wordRs1 w
  let i := wordImm12 w
  if op = 0x30 then .lb c rd a i
  else if op = 0x31 then .lbu c rd a i
  else if op = 0x32 then .lh c rd a i
  else if op = 0x33 then .lhu c rd a i
  else if op = 0x34 then .lw c rd a i
  else if op = 0x35 then .lwu c rd a i
  else if op = 0x36 then .ld c rd a i
  else if op = 0x38 then .sb c rd a i
  else if op = 0x39 then .sh c rd a i
  else if op = 0x3A then .sw c rd a i
  else if op = 0x3B then .sd c rd a i
  else if op = 0x3C then .rdreg c rd a i
  else if op = 0x3D then .wrreg c rd a i
  else if op = 0x3E then .rdreg64 c rd a i
  else if op = 0x3F then .wrreg64 c rd a i
  else .reservedOpcode c w

/-- A word whose opcode is 0x40 or above: branches, queues, objects, waits and the end (R163, R220). -/
def decodeControl (c : CoreId) (w : BitVec 32) : Instr :=
  let op := w.toNat % 256
  let rd := wordRd w
  let a := wordRs1 w
  let b := wordRs2 w
  let q := wordQueue w
  if op = 0x40 then .beq c rd a (wordImm12 w)
  else if op = 0x41 then .bne c rd a (wordImm12 w)
  else if op = 0x42 then .blt c rd a (wordImm12 w)
  else if op = 0x43 then .bge c rd a (wordImm12 w)
  else if op = 0x44 then .bltu c rd a (wordImm12 w)
  else if op = 0x45 then .bgeu c rd a (wordImm12 w)
  else if op = 0x48 then .jal c rd (wordImm18 w)
  else if op = 0x49 then .jalr c rd a (wordImm12 w)
  else if op = 0x50 then .push c q (wordF w) rd a b
  else if op = 0x51 then .pushm c q (wordF w) rd a b
  else if op = 0x52 then .qdepth c q rd
  else if op = 0x58 then (if wordFn w = 0 then .sopRead c rd a b else if wordFn w = 1 then .sopAdd c rd a b
    else if wordFn w = 2 then .sopSet c rd a b else .reservedOpcode c w)
  else if op = 0x60 then .waitcy c (wordImm18 w)
  else if op = 0x61 then .rdcyc c rd
  else if op = 0x70 then .tend c
  else .reservedOpcode c w

/-- The command that an instruction word spells on a core (R162, R163). -/
def decodeWord (c : CoreId) (w : BitVec 32) : Instr :=
  let op := w.toNat % 256
  if op < 0x30 then decodeScalar c w
  else if op < 0x40 then decodeAccess c w
  else decodeControl c w

end Sys2Proof
end

