-- ==== Sys2Proof/Machine/State.lean ====
section
/-! DEFINITION. The state of the module as plain data, the ways a command can stop, and the state after reset.

Two stores hold most of it. `mem` is every byte memory of R231's local map (unified, tile, slice, instruction-page
and data memory), by local address. `regs` is every register word that is not computed from other state, by bank,
page and offset (R492); a word that is absent reads as its Reset column. A bank is 0 for a shared register, 1 + the
requester's code for a register held per requester (R92), or the number of the selected entry (context, layer,
bucket, channel, forwarder, doorbell, watch) for a register behind a selector. -/
namespace Sys2Proof.Machine

/-- Why the machine stops. No command of the table ends in one of these on a state that the model reaches. -/
inductive Fault where
  /-- Raised by nothing: the spec stops the module nowhere; a skipped item is logged and passed over (R4). Safe. -/
  | none
  deriving DecidableEq, Repr

/-- Why a command has no meaning. -/
inductive Refusal where
  /-- Raised by a dispatch arm whose command has no meaning yet; no meaning answers it. Safe. -/
  | notModelled (mnemonic : String)
  deriving DecidableEq, Repr

/-- An exact real number m × 2^e, for sums before their one rounding (R54, R67). -/
structure Dyad where
  m : Int
  e : Int
  deriving DecidableEq, Repr

/-- One element of a block-format operand: mantissa code and its block's exponent byte (R30, R31). -/
structure Elem where
  m : Int
  e : Nat
  deriving DecidableEq, Repr

/-! ### A core's control processor -/

/-- The states of an instruction page (R172). -/
inductive PageState where
  | opened
  | ready
  | closing
  deriving DecidableEq, Repr

/-- A register read in flight (R167, R168). -/
structure RegWait where
  rd : Nat
  addr : Nat
  wide : Bool
  deriving DecidableEq, Repr

/-- The control core (R158, R163, R167). -/
structure Ctl where
  /-- S1 to S63; absent reads zero (R160). -/
  sregs : Map W64
  running : Bool
  /-- TEND executed, engines not finished (R176). -/
  ended : Bool
  page : Nat
  pc : Nat
  /-- Core cycles since the task's first instruction (R163 RDCYC). -/
  cyc : Nat
  /-- Cycle at which a scalar register's pending result is available (R167). -/
  ready : Map Nat
  /-- WAITCY outstanding: its count (R167). -/
  waitcy : Option Nat
  regWait : Option RegWait
  /-- A SOP outstanding: its rd and the value that will be written (R167, R220). -/
  sopWait : Option (Nat × W64)
  /-- S1 to S63 at dispatch, for replay (R175). -/
  saved : Map W64
  /-- State of each instruction page; absent is OPEN (R160). -/
  pages : Map PageState
  deriving DecidableEq, Repr

/-! ### Queues -/

/-- A command in an engine queue: its word, entry index (R179), order of push within the task, and the
generation captures of its push (R212): tile register and value, for reads and for writes. -/
structure QEntry where
  word : BitVec 128
  idx : Nat
  seq : Nat
  rcap : Map Nat
  wcap : Map Nat
  deriving DecidableEq, Repr

/-- A command taken and not yet completed (R181, R217): its order of push, queue code, entry index, the object
it signals when SIG is set. -/
structure Flight where
  seq : Nat
  queue : Nat
  idx : Nat
  sig : Option Nat
  deriving DecidableEq, Repr

/-- The four queues of a core with the counts of accepted commands (R178, R179). -/
structure Queues where
  matrix : List QEntry
  vector : List QEntry
  dma : List QEntry
  reduce : List QEntry
  accM : Nat
  accV : Nat
  accD : Nat
  accR : Nat
  flights : List Flight
  deriving DecidableEq, Repr

/-! ### The cube array -/

/-- A stationary bank (R99, R104). -/
structure Bank where
  /-- Sequence number of the latest load issued to it in the task; 0 none (R104). -/
  issued : Nat
  /-- Sequence number written into each completed cube row (R104). -/
  rowSeq : Map Nat
  /-- The bank holds a completed load, none of whose rows a later load has begun to overwrite (R114). -/
  loaded : Bool
  /-- M, D and formats of the latest LOAD taken for the bank in the task (R101, R193). -/
  m : Nat
  d : Nat
  bits : Nat
  depthBlocked : Bool
  /-- Elements by output row × 1,024 + depth position; absent is zero under exponent byte 0. -/
  elems : Map Elem
  deriving DecidableEq, Repr

/-- A LOAD accepted by the loader (R103, R192). -/
structure LoadJob where
  flight : Flight
  bank : Nat
  loadSeq : Nat
  tileReg : Nat
  across : Bool
  m : Nat
  d : Nat
  u0 : Nat
  v0 : Nat
  /-- The committed tile register as read at the take: eight words (R185). -/
  treg : List Nat
  /-- The captured generation when the load is tagged (R212). -/
  tag : Option Nat
  /-- Cube rows written so far. -/
  rows : Nat
  deriving DecidableEq, Repr

/-- A STREAM taken by the stream sequencer (R106, R192). -/
structure StreamJob where
  flight : Flight
  group : Nat
  bank : Nat
  flip : Option Nat
  tileReg : Nat
  treg : List Nat
  n : Nat
  d : Nat
  /-- Panel rows and mantissa bits of the bank's latest LOAD (R110, R52). -/
  m : Nat
  sbits : Nat
  u0 : Nat
  v0 : Nat
  q : Nat
  /-- Both operands are depth-blocked (R98). -/
  segment : Bool
  /-- Mantissa bits of the streamed operand. -/
  bits : Nat
  /-- Enabled compute cubes as read at the take: row mask and block mask (R123). -/
  rowMask : Nat
  blockMask : Nat
  tag : Option Nat
  words : Nat
  entered : Nat
  /-- The group's step count when the stream was taken. -/
  stepBase : Nat
  /-- Markers that ride its first and its last word (R107). -/
  opens : List Nat
  closes : List Nat
  /-- Marker words still to enter before its first word (R191). -/
  before : Nat
  deriving DecidableEq, Repr

/-- A stream word in the array (R105, R107, R191): the stream it belongs to, none for a marker word; its markers, operands
and the check sums formed so far. -/
structure SWord where
  job : Option StreamJob
  /-- Its first depth position, and whether it is its stream's last word. -/
  pos : Nat
  last : Bool
  opens : List Nat
  closes : List Nat
  /-- Streamed operands by depth offset × 256 + output column; absent is zero. -/
  elems : Map Elem
  /-- Of the stream-buffer slot that it came from: the tags copied at the fill match, and the first poisoned byte read
  (R109, R213, R413). -/
  tagOk : Bool
  bad : Option Nat
  /-- The next cube row that takes the word: 0 to 31, 32 the check row and corner, 33 none. -/
  row : Nat
  /-- Exact sums so far of the column lines, by position in the word × 256 + column, and of the whole tile by position. -/
  colSums : Map Dyad
  allSum : Map Dyad
  deriving DecidableEq, Repr

/-- The partial integer of a cell for the current segment (R98), with its classes (R58). -/
structure Partial where
  p : Int
  w : Int
  finite : Bool
  nan : Bool
  pinf : Bool
  ninf : Bool
  deriving DecidableEq, Repr

/-- The cube array of a core. -/
structure Array where
  pointer : Nat
  loadSeq : Nat
  bank0 : Bank
  bank1 : Bank
  /-- The bank each cube row reads (R107). -/
  rowBank : Map Nat
  loads : List LoadJob
  streams : List StreamJob
  words : List SWord
  /-- Groups whose open marker waits for the next stream word (R107, R191). -/
  pendingOpens : List Nat
  /-- Groups closed with no word to ride: the marker words still to enter (R191). -/
  markerWords : List Nat
  partials : Map Partial
  deriving DecidableEq, Repr

/-! ### Groups -/

/-- A cell (R49): value with excess as the exact sum in SUM groups, or value and index in MAX and MIN groups. -/
structure Cell where
  value : BitVec 64
  state : BitVec 32
  index : BitVec 32
  deriving DecidableEq, Repr

/-- A check line (R67): its cell and the number of rounded contributions r (R68). -/
structure CheckLine where
  sum : BitVec 72
  r : Nat
  deriving DecidableEq, Repr

/-- A group (R62 to R66, R72). -/
structure Group where
  state : Nat
  mode : Nat
  chk : Bool
  anchor : Int
  /-- Accumulation steps by the streams taken, and shown. -/
  planned : Nat
  steps : Nat
  rounded : Nat
  limited : Bool
  /-- The close marker has left the array. -/
  markerOut : Bool
  /-- Calibration slot and the task's step when calibrated (R81). -/
  cal : Option (Nat × Nat)
  /-- Push order and entry index of the GCLOSE. -/
  closer : Option Flight
  fail : Bool
  ovfCells : Nat
  nfCells : Nat
  failLines : Nat
  unchkLines : Nat
  top : Nat
  firstLine : Nat
  worst : Nat
  /-- A soft reset has returned the record's words to Reset since they were last written (R15, R498). -/
  wiped : Bool
  deriving DecidableEq, Repr

/-! ### Vector engine, task and scheduler -/

/-- The vector engine of a core (R130, R150, R151, R181). -/
structure Vec where
  /-- Register words by register × 2,048 + lane. -/
  regs : Map W32
  /-- Seed, task key and count that key every lane generator (R151). -/
  genSeed : W64
  genKey : W64
  genCount : Nat
  /-- Commands in execution, in queue order: each flight and the observation it delivers at completion (slot, order,
  saturated). -/
  running : List (Flight × Option (Nat × Option Int × Bool))
  deriving DecidableEq, Repr

/-- An operation of a task held to its commit (R218, R376). -/
inductive HeldOp where
  | add (obj : Nat) (v : W64)
  | set (obj : Nat) (v : W64)
  | remoteAdd (module obj : Nat) (v : W64) (flow : Nat)
  | remoteSet (module obj : Nat) (v : W64) (flow : Nat)
  deriving DecidableEq, Repr

/-- A reduce part in a send buffer (R308, R309). -/
structure Part where
  bucket : Nat
  step : Nat
  core : Nat
  epoch : Nat
  elems : List Int
  retract : Bool
  deriving DecidableEq, Repr

/-- The digests of a run (R404). -/
structure Digest where
  localWrites : Nat
  remote : Map Nat
  parts : Map Nat
  held : Nat
  /-- Destination extents of the remote transfers: transfer number to (global address, length). -/
  extents : Map (Nat × Nat)
  deriving DecidableEq, Repr

/-- Which run of its task a core is in (R403). -/
inductive RunKind where
  | original
  | check
  | deciding (afterLine : Bool)
  deriving DecidableEq, Repr

/-- How the running task is being stopped, if it is (R214, R225). -/
inductive Halt where
  | no
  | fault
  | cancel
  /-- A guarded replay has failed, with GUARDFAIL's case (R216). -/
  | failed (case : Nat)
  deriving DecidableEq, Repr

/-- The running task (R208, R217, R402). -/
structure Task where
  slot : Nat
  ctx : Nat
  step : Nat
  key : W64
  seed : W64
  page : Nat
  entry : Nat
  guarded : Bool
  halt : Halt
  pushes : Nat
  held : List HeldOp
  parts : List Part
  /-- Its turn to be sampled has come, and no matrix command has been pushed (R402). -/
  sampled : Bool
  matrix : Bool
  unsample : Bool
  /-- A check line failed in the current run (R70, R406). -/
  lineFail : Bool
  /-- GRPLEFT has been logged for the task (R217). -/
  grpLeft : Bool
  run : RunKind
  digest : Digest
  first : Option Digest
  second : Option Digest
  firstHeld : List HeldOp
  transfers : Nat
  /-- The run has ended and its outcome or next run waits (R405, R406). -/
  runEnded : Bool
  deriving DecidableEq, Repr

/-- A task slot's state and arming sequence number (R205, R206). -/
structure Slot where
  state : Nat
  seq : Nat
  deriving DecidableEq, Repr

/-- The scheduler of a core with its generation tags (R206, R211, R402). -/
structure Sched where
  slots : Map Slot
  armSeq : Nat
  task : Option Task
  /-- GEN_t by tile register. -/
  gens : Map Nat
  /-- Tags by tile register × 1,024 + line mod 1,024. -/
  tags : Map Nat
  vectorTasks : Nat
  fieldTest : Bool
  waking : Bool
  deriving DecidableEq, Repr

/-- One core (R20). -/
structure Core where
  ctl : Ctl
  queues : Queues
  /-- Staged tile-register words by register × 8 + word; absent equals the committed copy (R184). -/
  staged : Map W32
  array : Array
  groups : Vector Group 4
  /-- Cells by group × 65,536 + row × 256 + column; absent is all zero. -/
  cells : Map Cell
  /-- Check lines by group × 513 + line. -/
  checks : Map CheckLine
  vec : Vec
  sched : Sched
  deriving DecidableEq, Repr

/-! ### DMA -/

/-- A transfer: its descriptor words, who started it, its snapshots and its progress (R262 to R272). -/
structure Xfer where
  desc : List Nat
  /-- The core and flight of a pushed transfer; none for a detached one. -/
  owner : Option (Nat × Flight)
  /-- The requester of a detached transfer, and its context. -/
  starter : Option Req
  ctx : Nat
  /-- Committed tile registers read at the take, source and destination (R185, R265). -/
  srcReg : List Nat
  dstReg : List Nat
  srcTag : Option Nat
  dstTag : Option Nat
  /-- Rows issued, rows whose writes have been issued, and rows whose writes have landed: those are written, or completed
  (R271, R272). A local row lands at once, a row to another module when the WCOMPs of its writes are in (R371). -/
  issued : Nat
  written : Nat
  landed : Nat
  /-- Bytes of rows issued and not written: row number, bytes with poison marks, exponent bytes ready to write. -/
  rowsIn : Map (List (Byte × Bool))
  /-- Rows whose data is still to be counted as progress (R271). -/
  unreported : Nat
  unmapped : Bool
  unalloc : Bool
  pageWr : Bool
  /-- The transfer's number in its task, for digests (R404). -/
  number : Nat
  digestOnly : Bool
  /-- The transfer's number on its channel. -/
  serial : Nat
  /-- Bytes of the next row already requested from another module (R274). -/
  part : Nat
  /-- The read-back of a remote destination: rows landed at its issue, whether it has returned, and the rows of the progress
  step that it is for, 0 for the last one (R271, R371). -/
  back : Option (Nat × Bool × Nat)
  /-- Bytes of the next row already sent to another module. -/
  wpart : Nat
  /-- Pacing: the transfer may issue; F has been at or below the low mark and has not reached the high one since (R273). -/
  filling : Bool
  /-- Rows counted in DMA_ISSUED; a row issued afresh is not counted again (DEDUCED, log entry 23). -/
  counted : Nat
  /-- DMA_PROGSTEP as it stood when the last row was issued (R278). -/
  step : Nat
  /-- DMA_TAGMAX as it stood when the last row's issue began (R278). -/
  tagLim : Nat
  /-- Rows counted into the digest of a pushed transfer's run (R404). -/
  hashed : Nat
  /-- The transfer is to end at its next row boundary: 0 no, 1 a detached one aborted (R276), 2 one of a stopped task (R225). -/
  stop : Nat
  /-- The task that pushed it has consumed poison: what it still writes is marked poisoned (R413). -/
  tainted : Bool
  deriving DecidableEq, Repr

/-- A DMA channel (R262, R278). -/
structure Chan where
  active : Option Xfer
  shadow : Option Xfer
  /-- The transfer that is suspended, and the row (R254). -/
  suspended : Option (Nat × Nat)
  /-- The transfer that has resumed, and the row that still holds its place among the accesses to its tiles (R241). -/
  resumed : Option (Nat × Nat)
  lastOutcome : Nat
  /-- Transfers loaded so far. -/
  loaded : Nat
  /-- Transfers cancelled, faulted or aborted whose reads have not returned, by their number (R226). -/
  late : List Nat
  deriving DecidableEq, Repr

/-! ### Calibration -/

/-- A slot's configuration (R77, R92). -/
structure CalCfg where
  mode : Nat
  wm1 : Nat
  h : Nat
  ho : Nat
  g : Nat
  t0 : Int
  deriving DecidableEq, Repr

/-- An observation (R81, R82). -/
structure Obs where
  order : Option Int
  sat : Bool
  deriving DecidableEq, Repr

/-- A calibration slot (R77). -/
structure CalSlot where
  cfg : CalCfg
  pending : CalCfg
  /-- A history clear was requested (R92). -/
  clearReq : Bool
  ring : Map Int
  obs : Obs
  /-- The observation of the step that the boundary in progress ends. -/
  obsEnded : Obs
  /-- The derivation for the current step is still to be done, and whether it writes the ring (R384). -/
  due : Bool
  writes : Bool
  /-- The step that the derivation still to be done is for, and the step that the derived values are of. -/
  dueStep : Nat
  forStep : Option Nat
  tmax : Int
  anchor : Int
  ebyte : Nat
  cold : Bool
  clamped : Bool
  pendAgree : Bool
  /-- The slot fell back to its local proposal for the current step (R91). -/
  fellBack : Bool
  /-- AGREEs kept for a derivation still to come, by step (R90). -/
  kept : Map Int
  satSteps : Nat
  /-- Anchor and exponent byte that were in force for earlier steps, for tasks of those steps that still run (R80). -/
  past : Map (Int × Nat)
  deriving DecidableEq, Repr

/-! ### Unified memory -/

/-- Tile conditions of R238. -/
inductive TileCond where
  | zero
  | low
  | clean
  | dirty
  deriving DecidableEq, Repr

/-- An allocated page (R236, R237, R250, R257). -/
structure MPage where
  ctx : Nat
  frame : Option Nat
  extent : Option Nat
  pinned : Bool
  /-- Pinned and waiting for a frame (R258, R483). -/
  wantsFrame : Bool
  place : Nat
  /-- The tick of the later of its last access and its taking its frame (R250). -/
  touched : Nat
  /-- 0 none, 1 background fetch, 2 demotion, 3 write-back, 4 demotion as an eviction, 5 write-back amid a background fetch. -/
  moving : Nat
  deriving DecidableEq, Repr

/-- What waits at the migration engine (R241, R254, R471): a channel's row, an accepted fabric message, a requester's atomic on
this module, a write of the home's tables with its number, or the first held access of a host port's memory window. -/
inductive WaitFor where
  | chan (ch : Nat)
  | msg (m : Msg)
  | rop (code op addr : Nat) (x cmp : W64)
  | home (n addr : Nat) (bs : List Byte)
  | window (port : Nat)
  deriving DecidableEq, Repr

/-- An access that waits, with the tiles that it meets. -/
structure Waiter where
  what : WaitFor
  tiles : List Nat
  deriving DecidableEq, Repr

/-- A memory request in progress (R259): operation, pages still to complete, all pages, count. -/
structure MemReq where
  op : Nat
  left : List Nat
  count : Nat
  sig : Option Nat
  done : Nat
  deriving DecidableEq, Repr

/-- Gnomon's migration engine. -/
structure Mig where
  pages : Map MPage
  /-- Condition of a tile by page × 512 + tile; absent is ZERO. -/
  tiles : Map TileCond
  /-- Faulted tiles in order of arrival, each with whether it is a write and its requester code (R241, R261). -/
  faults : List (Nat × Bool × Nat)
  /-- Accesses that wait for tiles, in the order in which they reached the migration engine (R241). -/
  waiters : List Waiter
  badFrames : List Nat
  badExtents : List Nat
  /-- The hours of the corrected errors of a DRAM row, latest first (R258). -/
  ceRows : Map (List Nat)
  /-- The last tick at which a context had an armed slot (R257). -/
  idleSince : Map Nat
  ticks : Nat
  requests : Map MemReq
  /-- The background eviction of R251 is running from the low mark to the high mark. -/
  draining : Bool
  reserveUsed : Nat
  deriving DecidableEq, Repr

/-! ### Update engine -/

/-- The run state of a layer (R283, R284, R300). -/
structure Layer where
  /-- 0 IDLE, 1 WAITING, 2 ACTIVE. -/
  state : Nat
  /-- Updates made eligible and not begun: the step, and whether the layer's records of it all lack contributors (R288). -/
  queue : List (Nat × Bool)
  /-- A COPY waits or runs. -/
  copying : Bool
  rejected : Bool
  /-- The step of the update in progress. -/
  current : Option Nat
  /-- The update or COPY in progress has written the copies (R285). -/
  wrote : Bool
  deriving DecidableEq, Repr

/-! ### Reduction -/

/-- A member's side of a bucket for one step (R309 to R312, R320). -/
structure Member where
  step : Nat
  /-- Parts released, and their element-wise sum (R309). -/
  released : Nat
  staging : List Int
  nonfin : Bool
  /-- Bytes of the channel's send buffer that released parts and the retained CONTRIB take. -/
  space : Nat
  /-- The epoch of the latest part or retraction. -/
  epoch : Nat
  /-- Cores whose unresolved checks belong to released parts of a contribution not yet complete, and whether such a check has
  ended against its original (R408). -/
  checks : List Nat
  bad : Bool
  /-- A complete message waits for its turn: 0 none, 1 to 3 a NOTICE of that cause, 4 a CONTRIB. -/
  ready : Nat
  /-- The CONTRIB or NOTICE has been sent; the member's part has ended (R320). -/
  sent : Bool
  ended : Bool
  /-- Elements of the retained CONTRIB (R312). -/
  retained : Option (List Int)
  clearSent : Bool
  /-- The member deadline, while it has not fallen, and whether it has. -/
  deadline : Option Nat
  closed : Bool
  deriving DecidableEq, Repr

/-- A home record (R316, R317). -/
structure Record where
  step : Nat
  /-- 1 open, 2 collected, 3 ready, 4 committed, 5 excluded whole. -/
  state : Nat
  sum : List Int
  included : List Nat
  excluded : List (Nat × Nat)
  cleared : List Nat
  late : Nat
  retractions : Nat
  opened : Nat
  deadline : Nat
  collectedAt : Nat
  /-- The step that the record is of has ended at this home (R323). -/
  past : Bool
  delivered : Bool
  /-- The reference scale, and whether the AGREE was partial, as they stood at the end of the step (R324). -/
  ref : Option Nat
  partialAg : Bool
  deriving DecidableEq, Repr

/-- The agreement of a bucket for one step at its home (R319). -/
structure Agreement where
  step : Nat
  proposals : List (Nat × Int)
  firstAt : Nat
  sent : Option Int
  partialAg : Bool
  /-- The boundary page was disabled since: the step may be prepared, and agreed, once more (R384). -/
  old : Bool
  deriving DecidableEq, Repr

/-- The reduction block. -/
structure Red where
  /-- Member state by bucket × 2 + step parity. -/
  members : Map Member
  records : Map Record
  agreements : Map Agreement
  /-- Bytes of send buffer in use by channel. -/
  used : Map Nat
  /-- Committed n by bucket (RED_BKCOUNT). -/
  counts : Map Nat
  /-- Reduction messages that wait at the edge router for their record (R316). -/
  waiting : List Msg
  /-- Epochs whose checks are attached and unresolved, and epochs failed (R408). -/
  attached : List (Nat × Nat)
  failed : List Nat
  deriving DecidableEq, Repr

/-! ### Ickor -/

/-- A flit held by the module: its bytes. -/
abbrev FlitBytes := List Byte

/-- An Ickor port (R333 to R342). -/
structure Port where
  state : Nat
  /-- Time at which its training began, or, while it rests, the end of the rest after TRAINFAIL. -/
  leftDown : Option Nat
  rest : Bool
  /-- Consecutive good TRAIN flits received, and TRAIN flits sent, in FECLOCK. -/
  goodTrains : Nat
  sentTrains : Nat
  /-- SEQ that the far end expects next, its initial credits by VC × 2 + class, its layout version was right, and it
  holds the module's own identifier. -/
  peerExpects : Nat
  peerCredits : List Nat
  layoutOk : Bool
  dup : Bool
  /-- The port has been UP since it last left DOWN. -/
  wasUp : Bool
  txSeq : Nat
  replay : List FlitBytes
  /-- Flits of the replay buffer still to be resent. -/
  resend : List FlitBytes
  rxSeq : Nat
  nakSent : Bool
  lastNak : Option Nat
  nakRun : Nat
  /-- Credits held for the far end's buffers, and credits to return, by VC × 2 + class. -/
  credits : Map Nat
  owed : Map Nat
  ackDue : Bool
  nakDue : Bool
  deriving DecidableEq, Repr

/-- A route change (R351): a destination whose set of ports changed, as bits, and the end of the hold of the flows to it whose
port changed with it. -/
structure Hold where
  dest : Nat
  old : Nat
  new : Nat
  till : Nat
  deriving DecidableEq, Repr

/-- The way of a message out of an input buffer (R330, R348): the output, 63 for discard; the port by which it is to leave the
module; the class that it has behind the output (R347); and its HEAD flit. -/
structure Route where
  out : Nat
  port : Nat
  cls : Nat
  /-- The class in which the message leaves the module by its port. -/
  leave : Nat
  head : FlitBytes
  deriving DecidableEq, Repr

/-- The routers and links. Inputs and outputs are numbered alike (R330): 0 to 23 are ports, 24 + a the local port of router a,
28 + 4a + b the internal link from router a to router b. -/
structure Ick where
  ports : Map Port
  /-- Input buffers: flits by input × 16 + VC × 2 + class. -/
  buffers : Map (List FlitBytes)
  /-- The way of a message whose HEAD has left an input buffer, by buffer. -/
  routed : Map Route
  /-- The ports chosen for the HEADs that stand in an internal link's buffer, in order, each with the class beyond it. -/
  chosen : Map (List (Nat × Nat))
  /-- Flits injected that wait for a place in a local port's buffer, by router × 8 + VC. -/
  feed : Map (List FlitBytes)
  /-- The input buffer's input × 2 + class to which an output's VC is granted until TAIL, by output × 8 + VC (R345). -/
  granted : Map Nat
  /-- Weighted round robin by output: the current VC, and the flits left of its turn. -/
  turn : Map (Nat × Nat)
  /-- The input × 2 + class last served, by output × 8 + VC. -/
  lastInput : Map Nat
  /-- The class last served of an input, by (output × 8 + VC) × 64 + input. -/
  lastClass : Map Nat
  /-- The time from which the module may inject its next VC7 flit (R346). -/
  vc7Next : Nat
  /-- Flits in an input buffer beyond those it took in, which combining added (R314): so many leave it without a credit. -/
  extra : Map Nat
  /-- Flits of messages being received for the module itself, by output × 8 + VC. -/
  assembling : Map (List FlitBytes)
  /-- Messages delivered to the module and not yet acted on. -/
  inbox : List Msg
  /-- Messages that the routers have delivered, by the local port's place: output × 16 + VC × 2 + class (R342). -/
  parked : List (Nat × Msg)
  /-- The set of ports in force for a destination, as bits, when it is not empty (R348), and the changes that still hold flows
  (R351). -/
  inForce : Map Nat
  holds : List Hold
  /-- Route table words by destination (R347). -/
  routes : Map W32
  /-- Messages that the module's blocks offer to the fabric and that are not yet injected, in order. -/
  outbox : List Msg
  deriving DecidableEq, Repr

/-! ### Transactions -/

/-- What a fabric tag is held for (R274, R370). -/
inductive TagUse where
  /-- Bytes of a row's read: channel, transfer, row, offset in the row. -/
  | rowRead (ch serial row off : Nat)
  /-- A read of a row that the channel has dropped: its data goes nowhere (R254). -/
  | dropped (ch : Nat)
  /-- A part of a row's write by a channel's transfer. -/
  | rowWrite (ch serial row : Nat)
  /-- A read-back of a channel's transfer (R271). -/
  | readBack (ch serial : Nat)
  /-- A remote atomic of the requester with this code (R375). -/
  | rop (code : Nat)
  | pnotice
  deriving DecidableEq, Repr

/-- An outstanding transaction (R370): its type, target, address and length at the target. -/
structure Outstanding where
  ttype : Nat
  dest : Nat
  flow : Nat
  addr : Nat
  len : Nat
  issuedAt : Nat
  use : TagUse
  timedOut : Bool
  deriving DecidableEq, Repr

/-- The transaction block (R360 to R377). -/
structure Txn where
  /-- I and E by flow key (R362). -/
  flows : Map (Nat × Nat)
  /-- Next FSEQ by VC and FLOW (R360). -/
  fseq : Map Nat
  tags : Map Outstanding
  /-- Transactions that wait at issue for a free tag (R370): the transaction, its VC, AOP and body data. -/
  deferred : List (Outstanding × Nat × Nat × List Byte)
  /-- SOOPs of remote-operation registers that have not left, each with its requester's code (R375). -/
  leaving : List (Nat × Msg)
  deriving DecidableEq, Repr

/-! ### Boundary, reliability, host, Vesper, power -/

/-- The step boundary block (R382 to R399). -/
structure Bnd where
  step : Nat
  begun : Nat
  credits : Nat
  debts : Nat
  early : Bool
  /-- An edge of the current step that moved deadlines. -/
  earlyAt : Option Nat
  /-- Conditions 1 and 2 of R385 once met for the step. -/
  kept : Bool
  /-- Time at which the module became ready. -/
  readyAt : Option Nat
  lastWait : Nat
  /-- The mode in force: a write of BND_CTRL takes effect at the next boundary (R389). -/
  modeNow : Nat
  outHigh : Bool
  /-- A boundary is in progress (R393): a class bit charged to the ended step waits for action 9. -/
  closing : Bool
  /-- Class bits charged to each step (R397, R398). -/
  charged : Map Nat
  deriving DecidableEq, Repr

/-- A logbook entry (R416). -/
structure LogEntry where
  seq : Nat
  boot : Nat
  cycles : Nat
  kind : Nat
  cls : Nat
  index : Nat
  detail : Nat
  /-- Hours of operation at its cause, for the window of R417, and the frame or extent that a retirement names (R258). -/
  hours : Nat
  unit : Nat
  deriving DecidableEq, Repr

/-- A report in Vesper's queue (R421). -/
structure Report where
  page : Nat
  flag : Nat
  count : Nat
  capture : Option (List Nat)
  firstAt : Nat
  step : Nat
  deriving DecidableEq, Repr

/-- Vesper's reliability state (R407, R416 to R421). -/
structure Rel where
  logbook : List LogEntry
  /-- Entries Vesper has still to write, and entries kept because the logbook is full. -/
  toWrite : List LogEntry
  keptEntries : List LogEntry
  nextSeq : Nat
  /-- Hours of the last transient by unit code. -/
  lastTransient : Map Nat
  withdrawn : List Nat
  out : Bool
  /-- Field-test state by core: 0 not due, 1 due, 2 waiting for a checkpoint, 3 running (R423). -/
  ftState : Map Nat
  /-- When the budget, or the wait for a checkpoint, began by core; cores whose deferral is over (R419). -/
  ftSince : Map Nat
  ckpt : List Nat
  /-- CRC counts of the ports at the start of the 24-hour period (R417). -/
  crcBase : Map Nat
  reports : List Report
  dropped : Nat
  /-- Corrected errors by unit code (R409). -/
  ceUnits : Map Nat
  deriving DecidableEq, Repr

/-- A memory-window access held for Meridian, a fault or its time (R427, R431). -/
structure WinAccess where
  fn : Nat
  /-- The window byte it names, and the local address that this was on arrival. -/
  off : Nat
  addr : Nat
  len : Nat
  data : Option (List Byte)
  poison : Bool
  /-- An access of the control window, and whether it is 64 bits wide (R427); none for the memory window. -/
  ctl : Option Bool
  arrived : Nat
  deriving DecidableEq, Repr

/-- A function's configuration space, as far as the host interface's rules act on it (R425, R426, R436): Bus Master Enable, MSI-X
Enable and Function Mask, the payload and read-request sizes as codes (128 × 2^code bytes), and the power state (0 is D0). -/
structure FnCfg where
  busMaster : Bool
  msixOn : Bool
  msixMask : Bool
  payload : Nat
  readReq : Nat
  powerState : Nat
  deriving DecidableEq, Repr

/-- A PCI Express port with its functions (R425 to R449). -/
structure HPort where
  perst : Bool
  refclk : Bool
  trained : Bool
  enabled : Bool
  /-- RATE, WIDTH and FLIT of the trained link (R441). -/
  rate : Nat
  width : Nat
  flitMode : Bool
  /-- Virtual functions enabled (R441), and NumVFs as it was written; VF Enable is set while the first is not 0. -/
  numVf : Nat
  numVfs : Nat
  /-- Functions whose configuration differs from that after a reset. -/
  cfgs : Map FnCfg
  /-- Sizes of BAR2 of the physical function and of the virtual ones, as powers of two (R428). -/
  barLog : Nat
  vfBarLog : Nat
  /-- Doorbell adds that wait (R434): object, value, held window writes that arrived before. -/
  doorbells : List (Nat × W64 × Nat)
  windowQ : List WinAccess
  /-- MSI-X pending and signalled vectors by function × 2,048 + vector. -/
  msixPending : List Nat
  msixSignalled : List Nat
  deriving DecidableEq, Repr

/-- What leaves the module towards the hosts and the management network. -/
inductive Out where
  | msix (port fn vec : Nat) (addr : Nat) (data : W32)
  | readDone (port fn : Nat) (data : List Byte) (poison : Bool)
  | readAbort (port fn : Nat)
  | regValue (who : Req) (addr : Nat) (value : Nat)
  | debugCell (core : Nat) (off : Nat) (data : List Byte)
  | config (port fn : Nat) (retry : Bool) (value : Nat)
  /-- A request that completes as an unsupported request (R430). -/
  | unsupported (port fn : Nat)
  /-- A message of the management network: its kind, the UDP port or SMBus address it comes from, and its packets (R461). -/
  | mgmt (path : Path) (kind source : Nat) (packets : List (List Byte))
  /-- A PlatformEventMessage (R464): path and endpoint of the receiver, the event class, the event data. -/
  | report (path : Path) (eid cls : Nat) (data : List Byte)
  | ethernet (kind : Nat) (data : List Byte)
  | flit (port : PortId) (bytes : List Byte)
  deriving DecidableEq, Repr

/-- A register access by Vesper that waits for Meridian (R471): the path of the vendor-defined message that asks for
it, the page,
offset and width, and the value of a write. -/
structure HeldReg where
  path : Option Path
  page : Nat
  off : Nat
  wide : Bool
  value : Option Nat
  deriving DecidableEq, Repr

/-- Vesper: boot, identity, debug and management (R443 to R467). -/
structure Vesper where
  /-- The configuration flash; an unlisted byte reads 0xFF, erased. -/
  flash : Map Byte
  revoked : Nat
  floor : Nat
  /-- The boot state read from its sector in stage ROM (R444): the sequence number of the copy in force, boot count below,
  preferred slot, trial flag, slots marked failed. -/
  bootSeq : Nat
  prefSlot : Nat
  trialFlag : Bool
  failed : List Nat
  /-- Time of power good (R512). -/
  goodAt : Nat
  stage : Nat
  booting : Bool
  stopped : Bool
  slot : Nat
  trial : Bool
  fallback : Bool
  recovery : Bool
  idOk : Bool
  cfgOk : Bool
  cfgCopy : Nat
  /-- Trims whose recalibration fell back to the stored value at this boot (R452). -/
  trimFell : List Nat
  seed : Option (BitVec 256)
  bootCount : Nat
  nonces : Nat
  challenge : Option (BitVec 256 × Nat)
  token : Map W32
  scopes : Nat
  scopesSticky : Nat
  /-- When each open scope closes; one not listed stays open until LOCK or the next boot. -/
  scopeEnds : Map Nat
  eraseUsed : Bool
  rejects : Nat
  locked : Bool
  /-- SPDM connection state by path: 0 none, 1 version, 2 capabilities, 3 algorithms. -/
  spdm : Map Nat
  eid : Nat
  tid : Nat
  /-- Where reports go (R464): the path and endpoint ID of the receiver that was set. -/
  receiver : Option (Path × Nat)
  /-- MCTP packets taken, in order of arrival. -/
  rx : List (Path × List Byte)
  ip : W32
  smbAddr : Nat
  /-- Vesper's own accesses that wait for Meridian, in order. -/
  held : List HeldReg
  /-- Firmware update: 0 idle, 1 learn, 2 ready, 3 download, 4 verify, 5 apply; component and where it lies (slot of a
  bundle, copy of a record); bytes written and size; components applied since the update began, and the bundle's slot. -/
  updState : Nat
  updComp : Nat
  updSlot : Nat
  updDone : Nat
  updSize : Nat
  updOk : Bool
  updWritten : List Nat
  updBundle : Nat
  deriving DecidableEq, Repr

/-- Power, clocks and ageing (R469 to R491). -/
structure Power where
  /-- 0 OFF, 1 STANDBY, 2 GNOMON, 3 ACTIVE. -/
  modState : Nat
  modEn : Bool
  vin : Nat
  fellAt : Option Nat
  pwrgood : Bool
  meridian : Nat
  /-- What STOPPING moves to, and whether a start waits for it (R489). -/
  stopTo : Nat
  startAfter : Bool
  fromOff : Bool
  refclk156 : Bool
  /-- A trip awaits RESTART, the sensor that caused it, and whether the tile table is still being rewritten (R483). -/
  tripped : Bool
  tripSensor : Nat
  rewriting : Bool
  restarting : Bool
  gated : List Nat
  clamped : Bool
  clampAt : Nat
  fcore : Nat
  /-- Core voltages in mV at that clock (R486): trim value plus guard band; 0 while it does not run. -/
  volts : List Nat
  fmax : Nat
  clearRuns : Nat
  vinLow : Bool
  /-- Samples in a row below 36.0 V (R475). -/
  vin36 : Nat
  temps : List Int
  modW : Nat
  merW : Nat
  hours : Nat
  planMin : Nat
  guardMv : Map Nat
  /-- The path-delay replicas of each core at the last plan, in thousandths of a picosecond (R484). -/
  replicas : List (List Nat)
  /-- Stack rates in force, and as planned for the next start from OFF (R487), in units of 0.1 Gb/s. -/
  rates : Map Nat
  ratePlan : Map Nat
  /-- The plan of the first Meridian start after the boot has been made (R486). -/
  planned : Bool
  /-- Corrected symbols by port at the last almanac entry (R488). -/
  fecBase : Map Nat
  alSeq : Nat
  hottest : List Int
  deriving DecidableEq, Repr

/-- The module. -/
structure State where
  pending : List Instr
  now : Nat
  freeCtr : Nat
  mem : List Host.Cell
  /-- Poisoned 64-byte lines of the local map (R411), rising. -/
  poison : List Nat
  regs : Map W32
  latch : Map W32
  heldLow : Map W32
  objs : Map W64
  cores : Vector Core 4
  chans : Vector Chan 40
  cal : Map CalSlot
  mig : Mig
  layers : Map Layer
  /-- The layer whose update or COPY is in progress, and when it began. -/
  updating : Option (Nat × Nat)
  red : Red
  ick : Ick
  txn : Txn
  bnd : Bnd
  rel : Rel
  hosts : Vector HPort 2
  vesper : Vesper
  power : Power
  out : List Out
  deriving DecidableEq, Repr

/-! ### Reset -/

/-- A control core after power-on (R160, R176). -/
def Ctl.reset : Ctl :=
  { sregs := [], running := false, ended := false, page := 0, pc := 0, cyc := 0, ready := [], waitcy := none,
    regWait := none, sopWait := none, saved := [], pages := [] }

/-- Empty queues (R176, R202). -/
def Queues.reset : Queues :=
  { matrix := [], vector := [], dma := [], reduce := [], accM := 0, accV := 0, accD := 0, accR := 0, flights := [] }

/-- An invalid bank with nothing in it (R104). -/
def Bank.reset : Bank := { issued := 0, rowSeq := [], loaded := false, m := 0, d := 0, bits := 0, depthBlocked := false, elems := [] }

/-- An array with nothing in it and the bank pointer at 0 (R102). -/
def Array.reset : Array :=
  { pointer := 0, loadSeq := 0, bank0 := Bank.reset, bank1 := Bank.reset, rowBank := [], loads := [], streams := [],
    words := [], pendingOpens := [], markerWords := [], partials := [] }

/-- A FREE group with a cleared close record (R62, R72). -/
def Group.reset : Group :=
  { state := 0, mode := 0, chk := false, anchor := 0, planned := 0, steps := 0, rounded := 0, limited := false,
    markerOut := false, cal := none, closer := none, fail := false, ovfCells := 0, nfCells := 0, failLines := 0,
    unchkLines := 0, top := 0, firstLine := 0, worst := 0, wiped := false }

/-- Vector registers and generators at the values DESIGN CHOICE, log entry 4 names. -/
def Vec.reset : Vec := { regs := [], genSeed := 0, genKey := 0, genCount := 0, running := [] }

/-- Every slot IDLE, no task, every tag and counter zero (R205, R211). -/
def Sched.reset : Sched :=
  { slots := [], armSeq := 0, task := none, gens := [], tags := [], vectorTasks := 0, fieldTest := false, waking := false }

/-- A core after power-on. -/
def Core.reset : Core :=
  { ctl := Ctl.reset, queues := Queues.reset, staged := [], array := Array.reset,
    groups := Vector.replicate 4 Group.reset, cells := [], checks := [], vec := Vec.reset, sched := Sched.reset }

/-- A channel with empty sets (R278). -/
def Chan.reset : Chan :=
  { active := none, shadow := none, suspended := none, resumed := none, lastOutcome := 0, loaded := 0, late := [] }

/-- A calibration slot's Reset configuration (R92). -/
def CalCfg.reset : CalCfg := { mode := 0, wm1 := 3, h := 24, ho := 1, g := 4, t0 := 0 }

/-- No observation. -/
def Obs.none : Obs := { order := Option.none, sat := false }

/-- A calibration slot at power-on (R87). -/
def CalSlot.reset : CalSlot :=
  { cfg := CalCfg.reset, pending := CalCfg.reset, clearReq := false,
    ring := [], obs := Obs.none, obsEnded := Obs.none, due := false, writes := false, dueStep := 0, forStep := none,
    tmax := 0, anchor := 0, ebyte := 0, cold := false, clamped := false, pendAgree := false,
    fellBack := false, kept := [], satSteps := 0,
    past := [] }

/-- Nothing allocated (R260). -/
def Mig.reset : Mig :=
  { pages := [], tiles := [], faults := [], waiters := [], badFrames := [], badExtents := [], ceRows := [],
    idleSince := [], ticks := 0, requests := [], draining := false, reserveUsed := 0 }

/-- A layer at reset: IDLE (R302). -/
def Layer.reset : Layer :=
  { state := 0, queue := [], copying := false, rejected := false, current := none, wrote := false }

/-- No parts, records or agreements (R326). -/
def Red.reset : Red :=
  { members := [], records := [], agreements := [], used := [], counts := [], waiting := [], attached := [], failed := [] }

/-- A port in DOWN (R356). -/
def Port.reset : Port :=
  { state := 0, leftDown := none, rest := false, goodTrains := 0, sentTrains := 0, peerExpects := 0, peerCredits := [],
    layoutOk := false, dup := false, wasUp := false, txSeq := 0, replay := [], resend := [], rxSeq := 0,
    nakSent := false, lastNak := none, nakRun := 0, credits := [], owed := [], ackDue := false, nakDue := false }

/-- Routers with nothing in them. -/
def Ick.reset : Ick :=
  { ports := [], buffers := [], routed := [], chosen := [], feed := [], granted := [], turn := [], lastInput := [], lastClass := [], vc7Next := 0,
    extra := [], assembling := [], inbox := [], parked := [], inForce := [], holds := [], routes := [], outbox := [] }

/-- No flows and no tags (R362, R380). -/
def Txn.reset : Txn := { flows := [], fseq := [], tags := [], deferred := [], leaving := [] }

/-- The boundary block at reset (R399). -/
def Bnd.reset : Bnd :=
  { step := 0, begun := 0, credits := 0, debts := 0, early := false, earlyAt := none, kept := false, readyAt := none,
    lastWait := 0, modeNow := 0, outHigh := false, closing := false, charged := [] }

/-- Vesper's reliability state at reset: an empty logbook (DESIGN CHOICE, log entry 9). -/
def Rel.reset : Rel :=
  { logbook := [], toWrite := [], keptEntries := [], nextSeq := 0, lastTransient := [], withdrawn := [], out := false,
    ftState := [], ftSince := [], ckpt := [], crcBase := [], reports := [], dropped := 0, ceUnits := [] }

/-- A function's configuration after a reset, by PCI Express: 128-byte payloads, 512-byte read requests, nothing enabled
(PRESUMED, log entry 106). -/
def FnCfg.reset : FnCfg :=
  { busMaster := false, msixOn := false, msixMask := false, payload := 0, readReq := 2, powerState := 0 }

/-- A PCI Express port held in reset (R515), down (R441), its windows at their sizes after reset (R428). -/
def HPort.reset : HPort :=
  { perst := true, refclk := false, trained := false, enabled := false, rate := 0, width := 0, flitMode := false,
    numVf := 0, numVfs := 0, cfgs := [], barLog := 36, vfBarLog := 32, doorbells := [],
    windowQ := [], msixPending := [], msixSignalled := [] }

/-- Vesper before power good (R467); the flash is erased (DESIGN CHOICE, log entry 9). -/
def Vesper.reset : Vesper :=
  { flash := [], revoked := 0, floor := 0, bootSeq := 0, prefSlot := 0, trialFlag := false, failed := [], goodAt := 0, stage := 0,
    booting := false, stopped := false, slot := 0, trial := false, fallback := false, recovery := false,
    idOk := false, cfgOk := false, cfgCopy := 0, trimFell := [], seed := none, bootCount := 0,
    nonces := 0, challenge := none, token := [], scopes := 0, scopesSticky := 0, scopeEnds := [], eraseUsed := false,
    rejects := 0, locked := false, spdm := [], eid := 0, tid := 0, receiver := none, rx := [], ip := 0, smbAddr := 0, held := [],
    updState := 0, updComp := 0, updSlot := 0, updDone := 0, updSize := 0, updOk := false, updWritten := [], updBundle := 0 }

/-- The module OFF: a floating MOD_EN holds it so (R475, R515). -/
def Power.reset : Power :=
  { modState := 0, modEn := false, vin := 0, fellAt := none, pwrgood := false, meridian := 0, stopTo := 0,
    startAfter := false, fromOff := true, refclk156 := true, tripped := false, tripSensor := 0, rewriting := false,
    restarting := false, gated := [], clamped := false, clampAt := 0, fcore := 0, volts := [], fmax := 0, clearRuns := 0,
    vinLow := false, vin36 := 0, temps := [], modW := 0, merW := 0, hours := 0, planMin := 0, guardMv := [],
    replicas := [], rates := [], ratePlan := [], planned := false, fecBase := [], alSeq := 0, hottest := [] }

/-- The module after reset: unpowered, every register at its Reset column, no command waiting.
(DESIGN CHOICE, log entry 8.) -/
def State.reset : State :=
  { pending := [], now := 0, freeCtr := 0, mem := [], poison := [], regs := [], latch := [], heldLow := [], objs := [],
    cores := Vector.replicate 4 Core.reset, chans := Vector.replicate 40 Chan.reset, cal := [], mig := Mig.reset,
    layers := [], updating := none, red := Red.reset, ick := Ick.reset, txn := Txn.reset, bnd := Bnd.reset,
    rel := Rel.reset, hosts := Vector.replicate 2 HPort.reset, vesper := Vesper.reset, power := Power.reset, out := [] }

end Sys2Proof.Machine
end

