-- ==== Sys2Proof/Machine/Arith.lean ====
section
/-! DEFINITION. Arithmetic shared by the engines: the generators' fold (R150), CRC-32C (R338), exact binary values,
FP32 and bf16 arithmetic rounded once (R134 to R136), the transcendental operations (R135), and the conversions into and
out of block formats (R28 to R45). -/
namespace Sys2Proof.Machine

/-! ### Generators -/

/-- fold of R150. -/
def fold (z : W64) : W64 :=
  let z := (z ^^^ (z >>> 30)) * 0xBF58476D1CE4E5B9#64
  let z := (z ^^^ (z >>> 27)) * 0x94D049BB133111EB#64
  z ^^^ (z >>> 31)

/-- The value a generator draws with its count at n (R150). -/
def drawAt (key : W64) (n : Nat) : W64 := fold (key + BitVec.ofNat 64 n * 0x9E3779B97F4A7C15#64)

/-- A lane's key (R151). -/
def laneKey (seed taskkey : W64) (lane : Nat) : W64 := fold (seed ^^^ fold (taskkey ^^^ fold (BitVec.ofNat 64 lane)))

/-! ### CRC-32C -/

/-- One bit of the reflected CRC-32C register. -/
def crcBit : Nat → BitVec 32 → BitVec 32
  | 0, r => r
  | n + 1, r => crcBit n (if r.getLsbD 0 then (r >>> 1) ^^^ 0x82F63B78#32 else r >>> 1)

/-- The register after the bytes of a list. -/
def crcRun : BitVec 32 → List Byte → BitVec 32
  | r, [] => r
  | r, b :: t => crcRun (crcBit 8 (r ^^^ b.setWidth 32)) t

/-- CRC-32C of bytes (R338). -/
def crc32c (bs : List Byte) : BitVec 32 := ~~~ (crcRun 0xFFFFFFFF#32 bs)

/-! ### Exact values -/

/-- A value of any of the module's real formats: exact, with the sign of a zero kept. -/
inductive FVal where
  | nan
  | inf (neg : Bool)
  | fin (neg : Bool) (m : Nat) (e : Int)
  deriving DecidableEq, Repr

/-- A whole number shifted left by a count that may be negative (then it is a right shift, toward minus infinity). -/
def shiftInt (m : Int) (k : Int) : Int := if 0 ≤ k then m * 2 ^ k.toNat else m / 2 ^ (-k).toNat

/-- Exact sum. -/
def Dyad.add (a b : Dyad) : Dyad :=
  if a.m = 0 then b else if b.m = 0 then a
  else
    let e := min a.e b.e
    ⟨a.m * 2 ^ (a.e - e).toNat + b.m * 2 ^ (b.e - e).toNat, e⟩

/-- Exact product. -/
def Dyad.mul (a b : Dyad) : Dyad := ⟨a.m * b.m, a.e + b.e⟩

/-- a < b, exactly. -/
def Dyad.lt (a b : Dyad) : Bool :=
  let e := min a.e b.e
  decide (a.m * 2 ^ (a.e - e).toNat < b.m * 2 ^ (b.e - e).toNat)

/-- Exact zero. -/
def Dyad.zero : Dyad := ⟨0, 0⟩

/-- A finite value as an exact number; zero for the rest. -/
def FVal.dyad : FVal → Dyad
  | .nan => Dyad.zero
  | .inf _ => Dyad.zero
  | .fin neg m e => ⟨if neg then -(m : Int) else (m : Int), e⟩

/-- An exact number as a value; zero takes the sign given. -/
def FVal.ofDyad (zneg : Bool) (d : Dyad) : FVal :=
  if d.m = 0 then .fin zneg 0 0 else .fin (decide (d.m < 0)) d.m.natAbs d.e

/-- The value is zero. -/
def FVal.isZero : FVal → Bool
  | .nan => false
  | .inf _ => false
  | .fin _ m _ => m == 0

/-- The value is finite. -/
def FVal.isFin : FVal → Bool
  | .nan => false
  | .inf _ => false
  | .fin _ _ _ => true

/-- The value is NaN. -/
def FVal.isNan : FVal → Bool
  | .nan => true
  | .inf _ => false
  | .fin _ _ _ => false

/-- The sign of a value; NaN has none. -/
def FVal.neg : FVal → Bool
  | .nan => false
  | .inf n => n
  | .fin n _ _ => n

/-- The value with its sign inverted. -/
def FVal.flip : FVal → FVal
  | .nan => .nan
  | .inf n => .inf (!n)
  | .fin n m e => .fin (!n) m e

/-! ### FP32 and bf16 codes

A format is named by its fraction width: 23 for FP32 and 7 for bf16. Both have eight exponent bits and bias 127. -/

/-- The value of a code (R35, R36). -/
def fdec (fb w : Nat) : FVal :=
  let neg := w / 2 ^ (fb + 8) % 2 == 1
  let x := w / 2 ^ fb % 256
  let f := w % 2 ^ fb
  if x = 255 then (if f = 0 then .inf neg else .nan)
  else if x = 0 then .fin neg f (-126 - (fb : Int))
  else .fin neg (f + 2 ^ fb) ((x : Int) - 127 - (fb : Int))

/-- The one NaN code of the format (R36). -/
def fnan (fb : Nat) : Nat := 255 * 2 ^ fb + 2 ^ (fb - 1)

/-- A code with a sign bit. -/
def withSign (fb : Nat) (neg : Bool) (w : Nat) : Nat := if neg then w + 2 ^ (fb + 8) else w

/-- m × 2^e, with something positive below its last place when sticky, rounded to nearest even (R134): the code's magnitude.
255 × 2^fb is infinity. -/
def froundMag (fb m : Nat) (e : Int) (sticky : Bool) : Nat :=
  let m := 2 * m + (if sticky then 1 else 0)
  let e := e - 1
  if m = 0 then 0
  else
    let q := max (e + (Nat.log2 m : Int)) (-126) - (fb : Int)
    let n :=
      if q ≤ e then m * 2 ^ (e - q).toNat
      else
        let d := (q - e).toNat
        let k := m / 2 ^ d
        let r := m % 2 ^ d
        if 2 ^ (d - 1) < r ∨ (r = 2 ^ (d - 1) ∧ k % 2 = 1) then k + 1 else k
    min ((q + 126 + (fb : Int)).toNat * 2 ^ fb + n) (255 * 2 ^ fb)

/-- The code of a value rounded once. -/
def fenc (fb : Nat) : FVal → Nat
  | .nan => fnan fb
  | .inf neg => withSign fb neg (255 * 2 ^ fb)
  | .fin neg m e => withSign fb neg (froundMag fb m e false)

/-- Rounding makes an infinity of a finite value (R46 fpovf). -/
def fovf (fb : Nat) : FVal → Bool
  | .nan => false
  | .inf _ => false
  | .fin _ m e => froundMag fb m e false == 255 * 2 ^ fb

/-- Exact a + b of two values. -/
def vadd (a b : FVal) : FVal :=
  match a, b with
  | .nan, _ => .nan
  | _, .nan => .nan
  | .inf n, .inf k => if n = k then .inf n else .nan
  | .inf n, .fin _ _ _ => .inf n
  | .fin _ _ _, .inf n => .inf n
  | .fin n m e, .fin k p f =>
    FVal.ofDyad (m == 0 && p == 0 && n && k) ((FVal.fin n m e).dyad.add (FVal.fin k p f).dyad)

/-- Exact a × b of two values. -/
def vmul (a b : FVal) : FVal :=
  match a, b with
  | .nan, _ => .nan
  | _, .nan => .nan
  | .inf n, .inf k => .inf (n != k)
  | .inf n, .fin k m _ => if m = 0 then .nan else .inf (n != k)
  | .fin n m _, .inf k => if m = 0 then .nan else .inf (n != k)
  | .fin n m e, .fin k p f => .fin (n != k) (m * p) (e + f)

/-- ADD, SUB, MUL and FMA (R134, R136): the exact result rounded once. -/
def fadd (fb a b : Nat) : Nat := fenc fb (vadd (fdec fb a) (fdec fb b))
def fsub (fb a b : Nat) : Nat := fenc fb (vadd (fdec fb a) (fdec fb b).flip)
def fmul (fb a b : Nat) : Nat := fenc fb (vmul (fdec fb a) (fdec fb b))
def ffma (fb a b c : Nat) : Nat := fenc fb (vadd (vmul (fdec fb a) (fdec fb b)) (fdec fb c))

/-- The order of two values that are not NaN, −0 below +0. -/
def vlt (a b : FVal) : Bool :=
  match a, b with
  | .nan, _ => false
  | _, .nan => false
  | .inf n, .inf k => n && !k
  | .inf n, .fin _ _ _ => n
  | .fin _ _ _, .inf k => !k
  | .fin n m e, .fin k p f =>
    if m = 0 ∧ p = 0 then n && !k else (FVal.fin n m e).dyad.lt (FVal.fin k p f).dyad

/-- MIN and MAX (R134): NaN when either is, −0 below +0. -/
def fminmax (isMax : Bool) (fb a b : Nat) : Nat :=
  let x := fdec fb a
  let y := fdec fb b
  if x.isNan || y.isNan then fnan fb else if vlt x y then (if isMax then b else a) else (if isMax then a else b)

/-- CMP under condition codes 0 to 5, EQ NE LT LE GT GE (R138): zeros of both signs are equal, and NaN satisfies NE only. -/
def fcmp (cc fb a b : Nat) : Bool :=
  let x := fdec fb a
  let y := fdec fb b
  if x.isNan || y.isNan then cc == 1
  else
    let z := x.isZero && y.isZero
    let lt := !z && vlt x y
    let gt := !z && vlt y x
    if cc = 0 then !lt && !gt else if cc = 1 then lt || gt else if cc = 2 then lt else if cc = 3 then !gt
    else if cc = 4 then gt else !lt

/-- ABS and NEG (R138). -/
def fabs (fb a : Nat) : Nat := if (fdec fb a).isNan then fnan fb else a % 2 ^ (fb + 8)
def fneg (fb a : Nat) : Nat :=
  if (fdec fb a).isNan then fnan fb
  else if a / 2 ^ (fb + 8) % 2 = 1 then a % 2 ^ (fb + 8) else a % 2 ^ (fb + 8) + 2 ^ (fb + 8)

/-- The exact quotient of two positive magnitudes, rounded once. -/
def fdivMag (fb ma : Nat) (ea : Int) (mb : Nat) (eb : Int) : Nat :=
  froundMag fb (ma * 2 ^ 64 / mb) (ea - eb - 64) (ma * 2 ^ 64 % mb != 0)

/-- DIV (R135): the special cases of IEEE 754 division. -/
def fdiv (fb a b : Nat) : Nat :=
  match fdec fb a, fdec fb b with
  | .nan, _ => fnan fb
  | _, .nan => fnan fb
  | .inf _, .inf _ => fnan fb
  | .inf n, .fin k _ _ => withSign fb (n != k) (255 * 2 ^ fb)
  | .fin n _ _, .inf k => withSign fb (n != k) 0
  | .fin n m e, .fin k p f =>
    if p = 0 then (if m = 0 then fnan fb else withSign fb (n != k) (255 * 2 ^ fb))
    else withSign fb (n != k) (fdivMag fb m e p f)

/-- The square root of a whole number, rounded down, from bit k downwards. -/
def isqrtFrom : Nat → Nat → Nat → Nat
  | 0, _, r => r
  | k + 1, n, r => if (r + 2 ^ k) * (r + 2 ^ k) ≤ n then isqrtFrom k n (r + 2 ^ k) else isqrtFrom k n r

/-- The square root of a whole number, rounded down. -/
def isqrt (n : Nat) : Nat := isqrtFrom (Nat.log2 n / 2 + 1) n 0

/-- SQRT (R135). -/
def fsqrt (fb a : Nat) : Nat :=
  match fdec fb a with
  | .nan => fnan fb
  | .inf n => if n then fnan fb else 255 * 2 ^ fb
  | .fin n m e =>
    if m = 0 then withSign fb n 0
    else if n then fnan fb
    else
      let k : Nat := if e % 2 = 0 then 64 else 65
      let r := isqrt (m * 2 ^ k)
      froundMag fb r ((e - (k : Int)) / 2) (r * r != m * 2 ^ k)

/-- RCP (R135). -/
def frcp (fb a : Nat) : Nat := fdiv fb (127 * 2 ^ fb) a

/-- RSQRT (R135). -/
def frsqrt (fb a : Nat) : Nat :=
  match fdec fb a with
  | .nan => fnan fb
  | .inf n => if n then fnan fb else 0
  | .fin n m e =>
    if m = 0 then withSign fb n (255 * 2 ^ fb)
    else if n then fnan fb
    else
      let m := if e % 2 = 0 then m else 2 * m
      let e := if e % 2 = 0 then e else e - 1
      let r := isqrt (2 ^ 160 / m)
      froundMag fb r (-80 - e / 2) (r * r * m != 2 ^ 160)

/-! ### EXP2 and LOG2: an interval that holds the value, narrowed until both its ends round alike -/

/-- Bounds of 2^f in units of 2^−p, for the fraction f = frac × 2^−p: a product of successive square roots of 2. -/
def exp2Bounds (p : Nat) : Nat → Nat → Nat → Nat → Nat → Nat × Nat
  | 0, _, _, lo, hi => (lo, hi)
  | k + 1, frac, root, lo, hi =>
    let root := isqrt (root * 2 ^ p)
    if frac / 2 ^ k % 2 = 1 then exp2Bounds p k frac root (lo * root / 2 ^ p) (hi * (root + k + 2) / 2 ^ p + 1)
    else exp2Bounds p k frac root lo hi

/-- 2^x for x = m × 2^e (signed), not a whole number, to p bits: both ends of an interval, rounded. -/
def exp2Try (fb p : Nat) (d : Dyad) : Nat × Nat :=
  let n := shiftInt d.m d.e
  let frac := shiftInt d.m (d.e + (p : Int)) - n * 2 ^ p
  let b := exp2Bounds p p frac.toNat (2 * 2 ^ p) (2 ^ p) (2 ^ p)
  (froundMag fb b.1 (n - (p : Int)) true, froundMag fb (b.2 + b.2 / 2 ^ (p - 1) + 2) (n - (p : Int)) true)

/-- 2^x at rising precision until the ends agree. (DEDUCED, log entry 80.) -/
def exp2Mag (fb : Nat) (d : Dyad) : Nat → Nat → Nat
  | 0, p => (exp2Try fb p d).1
  | k + 1, p => let r := exp2Try fb p d; if r.1 = r.2 then r.1 else exp2Mag fb d k (2 * p)

/-- EXP2 (R135). Beyond ±1,100 the result is infinity or zero in both formats. -/
def fexp2 (fb a : Nat) : Nat :=
  match fdec fb a with
  | .nan => fnan fb
  | .inf n => if n then 0 else 255 * 2 ^ fb
  | .fin n m e =>
    let d := (FVal.fin n m e).dyad
    if m = 0 then 127 * 2 ^ fb
    else if (Dyad.mk 1100 0).lt d then 255 * 2 ^ fb
    else if d.lt ⟨-1100, 0⟩ then 0
    else
      let w := shiftInt d.m d.e
      if shiftInt w (-d.e) = d.m ∧ (0 ≤ d.e ∨ d.m % 2 ^ (-d.e).toNat = 0) then froundMag fb 1 w false
      else exp2Mag fb d 4 64

/-- Bits of log2 y for y in [1, 2), an interval in units of 2^−p, by repeated squaring: the bits so far, their count, and
whether the interval still decides. -/
def log2Bits (p : Nat) : Nat → Nat → Nat → Nat → Nat → Nat × Nat
  | 0, _, _, acc, n => (acc, n)
  | k + 1, lo, hi, acc, n =>
    let lo := lo * lo / 2 ^ p
    let hi := hi * hi / 2 ^ p + 1
    if 2 * 2 ^ p ≤ lo then log2Bits p k (lo / 2) ((hi + 1) / 2) (2 * acc + 1) (n + 1)
    else if hi < 2 * 2 ^ p then log2Bits p k lo hi (2 * acc) (n + 1)
    else (acc, n)

/-- log2 (m × 2^e), m not a power of two, to p / 2 bits: both ends of an interval, rounded, with sign. -/
def log2Try (fb p m : Nat) (e : Int) : Nat × Nat :=
  let l := Nat.log2 m
  let k := e + (l : Int)
  let y := m * 2 ^ p / 2 ^ l
  let r := log2Bits p (p / 2) y (y + 1) 0 0
  let enc := fun (v : Int) => withSign fb (decide (v < 0)) (froundMag fb v.natAbs (-((r.2 : Int) + 1)) false)
  let v := 2 * (k * 2 ^ r.2 + (r.1 : Int))
  (enc v, enc (v + 2))

/-- log2 at rising precision until the ends agree. -/
def log2Mag (fb m : Nat) (e : Int) : Nat → Nat → Nat
  | 0, p => (log2Try fb p m e).1
  | k + 1, p => let r := log2Try fb p m e; if r.1 = r.2 then r.1 else log2Mag fb m e k (2 * p)

/-- LOG2 (R135). -/
def flog2 (fb a : Nat) : Nat :=
  match fdec fb a with
  | .nan => fnan fb
  | .inf n => if n then fnan fb else 255 * 2 ^ fb
  | .fin n m e =>
    if m = 0 then withSign fb true (255 * 2 ^ fb)
    else if n then fnan fb
    else if m = 2 ^ Nat.log2 m then fenc fb (FVal.ofDyad false ⟨e + (Nat.log2 m : Int), 0⟩)
    else log2Mag fb m e 4 128

/-! ### Formats (R28) -/

/-- Mantissa bits of a block format, 0 for the others. -/
def blockBits (fmt : Nat) : Nat := if fmt = 1 then 8 else if fmt = 2 then 4 else if fmt = 3 then 16 else 0

/-- Element width in bits of a format code; 0 for a reserved code. -/
def fmtBits (fmt : Nat) : Nat :=
  if fmt = 1 then 8 else if fmt = 2 then 4 else if fmt = 3 then 16 else if fmt = 4 then 16 else if fmt = 5 then 32
  else if fmt = 6 then 8 else if fmt = 7 then 8 else if fmt = 8 then 16 else if fmt = 9 then 32 else 0

/-- The NaN mantissa of an n-bit block format (R31). -/
def nanCode (n : Nat) : Int := -(2 ^ (n - 1) : Int)

/-- The value of mantissa m under exponent byte E (R30, R31). -/
def elemVal (n : Nat) (m : Int) (E : Nat) : FVal :=
  if m = nanCode n then .nan
  else if E = 255 then (if m = 0 then .fin false 0 0 else .inf (decide (m < 0)))
  else FVal.ofDyad false ⟨m, (E : Int) - 127 - ((n : Int) - 1)⟩

/-- The value of an FP8 code (R37). -/
def fp8Val (e5 : Bool) (w : Nat) : FVal :=
  let neg := w / 128 % 2 == 1
  if e5 then
    let x := w / 4 % 32
    let f := w % 4
    if x = 31 then (if f = 0 then .inf neg else .nan)
    else if x = 0 then .fin neg f (-16) else .fin neg (f + 4) ((x : Int) - 17)
  else
    let x := w / 8 % 16
    let f := w % 8
    if x = 15 ∧ f = 7 then .nan else if x = 0 then .fin neg f (-9) else .fin neg (f + 8) ((x : Int) - 10)

/-- The value of an element code of a format without blocks; integers are their own values. -/
def plainVal (fmt w : Nat) : FVal :=
  if fmt = 4 then fdec 7 w else if fmt = 5 then fdec 23 w else if fmt = 6 then fp8Val false w
  else if fmt = 7 then fp8Val true w else FVal.ofDyad false ⟨signedOf (fmtBits fmt) w, 0⟩

/-- rne or rna of the magnitude m × 2^k (R38's rounding functions). -/
def roundAt (away : Bool) (m : Nat) (k : Int) : Nat :=
  if 0 ≤ k then m * 2 ^ k.toNat
  else
    let d := (-k).toNat
    let q := m / 2 ^ d
    let r := m % 2 ^ d
    if 2 ^ (d - 1) < r ∨ (r = 2 ^ (d - 1) ∧ (away ∨ q % 2 = 1)) then q + 1 else q

/-- A block written by R41: its exponent byte, its mantissas, and the lowest element saturated or lost, if any. -/
structure Block where
  e : Nat
  ms : List Int
  sat : Option Nat
  infloss : Option Nat
  deriving DecidableEq, Repr

/-- The largest magnitude of the finite values of a list, as m × 2^e; m = 0 when all are zero. -/
def maxMag : List FVal → Nat × Int
  | [] => (0, 0)
  | x :: t =>
    let b := maxMag t
    match x with
    | .nan => b
    | .inf _ => b
    | .fin _ m e => if (Dyad.mk b.1 b.2).lt ⟨m, e⟩ then (m, e) else b

/-- The own exponent of R41. -/
def ownExp (n : Nat) (away : Bool) (xs : List FVal) : Int :=
  let a := maxMag xs
  if a.1 = 0 then -127
  else
    let e := (Nat.log2 a.1 : Int) + a.2 + 1
    let e := if 2 ^ (n - 1) - 1 < roundAt away a.1 (a.2 + ((n : Int) - 1 - e)) then e + 1 else e
    min (max e (-127)) 127

/-- The mantissa of one element at exponent e, before the saturation test: NaN code, or signed rounded value. -/
def rawMant (n : Nat) (away : Bool) (e : Int) : FVal → Int
  | .nan => nanCode n
  | .inf neg => if neg then -1 else 1
  | .fin neg m x => let q := roundAt away m (x + ((n : Int) - 1 - e)); if neg then -(q : Int) else (q : Int)

/-- The mantissa clamped to the limit (R41); NaN keeps its code. -/
def clampMant (n : Nat) (x : FVal) (q : Int) : Int :=
  if x.isNan then q else max (-(2 ^ (n - 1) - 1 : Int)) (min q (2 ^ (n - 1) - 1))

/-- The conversion of one block (R41): width n, rna or rne, a given exponent byte or the block's own. -/
def toBlock (n : Nat) (away : Bool) (given : Option Nat) (xs : List FVal) : Block :=
  if xs.any (fun x => !x.isNan && !x.isFin) then
    { e := 255
      ms := xs.map (fun x => if x.isFin then 0 else rawMant n away 0 x)
      sat := none
      infloss := xs.findIdx? (fun x => x.isFin && !x.isZero) }
  else
    let e : Int := match given with
      | some g => (g : Int) - 127
      | none => ownExp n away xs
    let ms := xs.map (fun x => clampMant n x (rawMant n away e x))
    { e := if ms.all (fun m => m = 0 || m = nanCode n) then 0 else (e + 127).toNat
      ms := ms
      sat := xs.findIdx? (fun x => clampMant n x (rawMant n away e x) != rawMant n away e x)
      infloss := none }

/-- The mantissa bytes of a block (R33). -/
def packMants (n : Nat) : List Int → List Byte
  | [] => []
  | [a] => if n = 16 then [BitVec.ofInt 8 a, BitVec.ofNat 8 (codeOf 16 a / 256)] else [BitVec.ofNat 8 (codeOf n a)]
  | a :: b :: t =>
    if n = 4 then BitVec.ofNat 8 (codeOf 4 a + 16 * codeOf 4 b) :: packMants n t
    else if n = 8 then BitVec.ofNat 8 (codeOf 8 a) :: BitVec.ofNat 8 (codeOf 8 b) :: packMants n t
    else bytesOfInt16 a ++ bytesOfInt16 b ++ packMants n t
where
  /-- A 16-bit mantissa's two bytes, low first. -/
  bytesOfInt16 (a : Int) : List Byte := [BitVec.ofNat 8 (codeOf 16 a % 256), BitVec.ofNat 8 (codeOf 16 a / 256)]

end Sys2Proof.Machine
end

