-- ==== Sys2Proof/Config.lean ====
section
/-! DEFINITION. What an implementation fixes and the free values: constants with no body, of which nothing can be proved. -/
namespace Sys2Proof.Config

/-- The n-th value that the manual leaves open after a command that goes on (DESIGN CHOICE, log entry 3). -/
opaque freeValue : Nat → BitVec 64

/-- The master code that an update writes for an x that is no number: from the codes of w, f and p, and u (R290; DESIGN
CHOICE, log entry 26). -/
opaque unroundedMaster : Nat → Nat → Nat → Int → BitVec 16

/-- The frame, and the extent, in which a place of a stack or package lies that no page holds: the address mapping, which R258
names and does not give (DESIGN CHOICE, log entry 94). -/
opaque frameOf : Nat → Nat → Nat
opaque extentOf : Nat → Nat → Nat

/-- The SM3 digest of a run of bytes (R446, R457): the algorithm is GB/T 32905's, which the manual
names and does not give (DESIGN CHOICE, log entry 11). -/
opaque sm3 : List Byte → BitVec 256

/-- SM2 verification with the default user identifier (R446, R459): public key (x, y), signed bytes,
signature (r, s); GB/T 32918.2, not given by the manual (DESIGN CHOICE, log entry 11). -/
opaque sm2Verify : List Byte → List Byte → List Byte → Bool

/-- SM2 signing by a private key d (R453, R455), DESIGN CHOICE, log entry 11. -/
opaque sm2Sign : Nat → List Byte → List Byte

/-- The public key [d]G of a private key d (R453), DESIGN CHOICE, log entry 11. -/
opaque sm2PublicKey : Nat → List Byte

/-- The seed that the array's power-up state and the helper data give, and whether the check digest in the helper data confirms a
seed (R453); the code and the layout of the helper data are not given (DESIGN CHOICE, log entry 108). -/
opaque pufSeed : List Byte → List Byte → BitVec 256
opaque pufConfirms : List Byte → BitVec 256 → Bool

/-- A trim's stored value in the record's trim area, and its value as a boot recalibrates it (R452): by trim, and by boot and
trim; their layout and values are not given (DESIGN CHOICE, log entry 107). -/
opaque storedTrim : List Byte → Nat → Nat
opaque recalibratedTrim : Nat → Nat → Nat

/-- Fortaner's vendor identifier, which R462 has the record give and R450 gives no place (DESIGN CHOICE, log entry 109). -/
opaque vendorId : List Byte → Nat

/-- The mask ROM's hash of root public key k, 0 to 3 (R446), and the ROM version of R457. -/
opaque romHash : Nat → BitVec 256
opaque romVersion : Byte

/-- Root public key k, x then y, whose SM3 hash the ROM holds: what a record's root key index names (R451), DESIGN
CHOICE, log entry 11. -/
opaque rootKey : Nat → List Byte

/-- The n-th nonce of Vesper's true random generator (R458). -/
opaque nonce : Nat → BitVec 128

/-- The voltage trim of a core at a clock step in the record's trim area, in mV (R486: the record's trim
value); the layout of the trim entries is not given (DESIGN CHOICE, log entry 12). -/
opaque trimVoltage : List Byte → Nat → Nat → Nat

/-- The path-delay baseline d0 of a core in picoseconds that the record's almanac-baseline entries
hold, times 1,000 (R486); their layout is not given (DESIGN CHOICE, log entry 12). -/
opaque delayBaseline : List Byte → Nat → Nat

/-- The bodies of management answers whose layout belongs to DMTF standards and not to the manual
(R455, R462, R464, R465): by message kind and the model's arguments (DESIGN CHOICE, log entry 13). -/
opaque standardBody : Nat → List Nat → List Byte

end Sys2Proof.Config
end

