-- ==== Sys2Proof/Machine/RegTable.lean ====
section
/-! DEFINITION. The register map: the page index (R503), the fields of every register (R494 and the chapters' register
tables), and how an offset of a page is looked up. -/
namespace Sys2Proof.Machine

/-- The access codes of R14. -/
inductive Acc where
  | ro
  | rw
  | w1c
  | wo
  | rwl
  deriving DecidableEq, Repr

/-- A field of a register: bits [hi:lo], access code, Reset value (R14, R15; zero for "cfg"). -/
structure Fld where
  hi : Nat
  lo : Nat
  acc : Acc
  reset : Nat
  deriving DecidableEq, Repr

/-- A register word: its offset; 0 alone, 1 or 2 the low or high word of a pair (R12), 3 or 4 the low or high
of two words that may also be accessed together with one 64-bit access; its fields. -/
abbrev RegRow := Nat × Nat × List Fld

/-- A block's page (R503), a function page, or a page of a function's own window (R429). -/
inductive PKind where
  | rac
  | vesper
  | power
  | rel
  | host
  | mem
  | upd
  | bnd
  | so
  | ctx
  | cal
  | red
  | ick
  | txn
  | mdma
  | edge (e : Fin 4)
  | ctl (c : CoreId)
  | sch (c : CoreId)
  | eq (c : CoreId)
  | arr (c : CoreId)
  | acc (c : CoreId)
  | vec (c : CoreId)
  | cdma (c : CoreId)
  | tr (c : CoreId) (j : Fin 4)
  | ts (c : CoreId) (j : Fin 32)
  | func (p : Fin 2) (f : Fin 65)
  | msix (p : Fin 2) (f : Fin 65) (k : Fin 8)
  | pba (p : Fin 2) (f : Fin 65)
  | unassigned
  deriving DecidableEq, Repr

/-- The registers of R72: offset, 0 for one word, 1 and 2 for the low and high word of a pair, fields. -/
def accGroupRows : List RegRow :=
  [(0x000, 0, [⟨1, 0, .ro, 0⟩, ⟨3, 2, .ro, 0⟩, ⟨4, 4, .ro, 0⟩, ⟨5, 5, .ro, 0⟩, ⟨25, 16, .ro, 0⟩]),
   (0x004, 0, [⟨24, 0, .ro, 0⟩]),
   (0x008, 1, [⟨31, 0, .ro, 0⟩]),
   (0x00C, 2, [⟨31, 0, .ro, 0⟩]),
   (0x010, 0, [⟨16, 0, .ro, 0⟩]),
   (0x014, 0, [⟨16, 0, .ro, 0⟩]),
   (0x018, 0, [⟨9, 0, .ro, 0⟩]),
   (0x01C, 0, [⟨9, 0, .ro, 0⟩]),
   (0x020, 0, [⟨6, 0, .ro, 0⟩]),
   (0x024, 0, [⟨9, 0, .ro, 0⟩]),
   (0x028, 1, [⟨31, 0, .ro, 0⟩]),
   (0x02C, 2, [⟨31, 0, .ro, 0⟩])]

/-- The registers of R92: offset, 0 for one word, 1 and 2 for the low and high word of a pair, fields. -/
def calRows : List RegRow :=
  [(0x100, 0, [⟨13, 0, .rw, 0⟩]),
   (0x104, 0, [⟨1, 0, .rw, 0⟩, ⟨7, 4, .rw, 3⟩, ⟨13, 8, .rw, 0x18⟩, ⟨19, 16, .rw, 1⟩, ⟨28, 24, .rw, 4⟩]),
   (0x108, 0, [⟨10, 0, .rw, 0⟩, ⟨31, 31, .wo, 0⟩]),
   (0x10C, 0, [⟨10, 0, .ro, 0⟩, ⟨25, 16, .ro, 0⟩]),
   (0x110, 0, [⟨7, 0, .ro, 0⟩, ⟨8, 8, .ro, 0⟩, ⟨9, 9, .ro, 0⟩, ⟨10, 10, .ro, 0⟩]),
   (0x114, 0, [⟨10, 0, .ro, 0x400⟩, ⟨16, 16, .ro, 0⟩, ⟨31, 24, .ro, 0⟩]),
   (0x118, 1, [⟨31, 0, .ro, 0⟩]),
   (0x11C, 2, [⟨31, 0, .ro, 0⟩])]

/-- The registers of R114: offset, 0 for one word, 1 and 2 for the low and high word of a pair, fields. -/
def arrRows : List RegRow :=
  [(0x100, 0, [⟨0, 0, .rwl, 1⟩]),
   (0x104, 0, [⟨0, 0, .ro, 0⟩, ⟨1, 1, .ro, 0⟩, ⟨2, 2, .ro, 0⟩, ⟨3, 3, .ro, 0⟩, ⟨4, 4, .ro, 0⟩, ⟨5, 5, .ro, 0⟩]),
   (0x108, 1, [⟨31, 0, .ro, 0⟩]),
   (0x10C, 2, [⟨31, 0, .ro, 0⟩]),
   (0x110, 1, [⟨31, 0, .ro, 0⟩]),
   (0x114, 2, [⟨31, 0, .ro, 0⟩]),
   (0x118, 1, [⟨31, 0, .ro, 0⟩]),
   (0x11C, 2, [⟨31, 0, .ro, 0⟩]),
   (0x120, 1, [⟨31, 0, .ro, 0⟩]),
   (0x124, 2, [⟨31, 0, .ro, 0⟩])]

/-- The registers of R156: offset, 0 for one word, 1 and 2 for the low and high word of a pair, fields. -/
def vecRows : List RegRow :=
  [(0x100, 0, [⟨0, 0, .ro, 0⟩, ⟨1, 1, .ro, 0⟩]),
   (0x108, 1, [⟨31, 0, .ro, 0⟩]),
   (0x10C, 2, [⟨31, 0, .ro, 0⟩]),
   (0x110, 1, [⟨31, 0, .ro, 0⟩]),
   (0x114, 2, [⟨31, 0, .ro, 0⟩]),
   (0x118, 1, [⟨31, 0, .ro, 0⟩]),
   (0x11C, 2, [⟨31, 0, .ro, 0⟩]),
   (0x120, 1, [⟨31, 0, .ro, 0⟩]),
   (0x124, 2, [⟨31, 0, .ro, 0⟩])]

/-- The registers of R176: offset, 0 for one word, 1 and 2 for the low and high word of a pair, fields. -/
def ctlRows : List RegRow :=
  [(0x100, 0, [⟨0, 0, .ro, 0⟩, ⟨2, 1, .ro, 0⟩, ⟨3, 3, .ro, 0⟩, ⟨4, 4, .ro, 0⟩]),
   (0x104, 0, [⟨13, 0, .ro, 0⟩]),
   (0x108, 0, [⟨1, 0, .ro, 0⟩, ⟨2, 2, .ro, 0⟩, ⟨5, 4, .ro, 0⟩, ⟨6, 6, .ro, 0⟩, ⟨9, 8, .ro, 0⟩, ⟨10, 10, .ro, 0⟩, ⟨13, 12, .ro, 0⟩, ⟨14, 14, .ro, 0⟩]),
   (0x10C, 0, [⟨1, 0, .wo, 0⟩, ⟨8, 8, .wo, 0⟩, ⟨9, 9, .wo, 0⟩]),
   (0x110, 0, [⟨8, 0, .ro, 0⟩, ⟨24, 16, .ro, 0⟩]),
   (0x114, 0, [⟨7, 0, .ro, 0⟩, ⟨22, 16, .ro, 0⟩]),
   (0x118, 1, [⟨31, 0, .ro, 0⟩]),
   (0x11C, 2, [⟨31, 0, .ro, 0⟩]),
   (0x120, 1, [⟨31, 0, .ro, 0⟩]),
   (0x124, 2, [⟨31, 0, .ro, 0⟩]),
   (0x128, 1, [⟨31, 0, .ro, 0⟩]),
   (0x12C, 2, [⟨31, 0, .ro, 0⟩])]

/-- The registers of R182: offset, 0 for one word, 1 and 2 for the low and high word of a pair, fields. -/
def trRegRows : List RegRow :=
  [(0x000, 1, [⟨20, 0, .rw, 0⟩, ⟨22, 21, .rw, 0⟩, ⟨26, 23, .rw, 0⟩, ⟨27, 27, .rw, 0⟩, ⟨28, 28, .rw, 0⟩]),
   (0x004, 2, [⟨26, 0, .rw, 0⟩]),
   (0x008, 1, [⟨19, 0, .rw, 0⟩]),
   (0x00C, 2, [⟨19, 0, .rw, 0⟩]),
   (0x010, 1, [⟨31, 0, .rw, 0⟩]),
   (0x014, 2, [⟨31, 0, .rw, 0⟩]),
   (0x018, 1, [⟨31, 0, .rw, 0⟩]),
   (0x01C, 2, [⟨31, 0, .rw, 0⟩])]

/-- The registers of R202: offset, 0 for one word, 1 and 2 for the low and high word of a pair, fields. -/
def eqRows : List RegRow :=
  [(0x100, 0, [⟨7, 0, .ro, 0⟩, ⟨23, 16, .ro, 0⟩]),
   (0x104, 0, [⟨6, 0, .ro, 0⟩, ⟨21, 16, .ro, 0⟩]),
   (0x108, 1, [⟨31, 0, .ro, 0⟩]),
   (0x10C, 2, [⟨31, 0, .ro, 0⟩]),
   (0x110, 1, [⟨31, 0, .ro, 0⟩]),
   (0x114, 2, [⟨31, 0, .ro, 0⟩]),
   (0x118, 1, [⟨31, 0, .ro, 0⟩]),
   (0x11C, 2, [⟨31, 0, .ro, 0⟩]),
   (0x120, 1, [⟨31, 0, .ro, 0⟩]),
   (0x124, 2, [⟨31, 0, .ro, 0⟩]),
   (0x128, 1, [⟨31, 0, .ro, 0⟩]),
   (0x12C, 2, [⟨31, 0, .ro, 0⟩])]

/-- The registers of R204: offset, 0 for one word, 1 and 2 for the low and high word of a pair, fields. -/
def taskSlotRows : List RegRow :=
  [(0x000, 0, [⟨13, 0, .rw, 0⟩, ⟨15, 14, .rw, 0⟩, ⟨17, 16, .rw, 0⟩]),
   (0x004, 0, [⟨13, 0, .rw, 0⟩]),
   (0x008, 1, [⟨31, 0, .rw, 0⟩]),
   (0x00C, 2, [⟨31, 0, .rw, 0⟩]),
   (0x010, 1, [⟨31, 0, .rw, 0⟩]),
   (0x014, 2, [⟨31, 0, .rw, 0⟩]),
   (0x018, 1, [⟨31, 0, .rw, 0⟩]),
   (0x01C, 2, [⟨31, 0, .rw, 0⟩]),
   (0x020, 1, [⟨31, 0, .rw, 0⟩]),
   (0x024, 2, [⟨31, 0, .rw, 0⟩]),
   (0x028, 1, [⟨31, 0, .rw, 0⟩]),
   (0x02C, 2, [⟨31, 0, .rw, 0⟩]),
   (0x030, 0, [⟨16, 0, .rw, 0⟩, ⟨31, 31, .rw, 0⟩]),
   (0x034, 0, [⟨16, 0, .rw, 0⟩, ⟨31, 31, .rw, 0⟩]),
   (0x038, 0, [⟨16, 0, .rw, 0⟩, ⟨31, 31, .rw, 0⟩]),
   (0x03C, 0, [⟨16, 0, .rw, 0⟩, ⟨31, 31, .rw, 0⟩])]

/-- The registers of R227: offset, 0 for one word, 1 and 2 for the low and high word of a pair, fields. -/
def schRows : List RegRow :=
  [(0x100, 0, [⟨9, 0, .wo, 0⟩]),
   (0x104, 0, [⟨9, 0, .wo, 0⟩]),
   (0x108, 0, [⟨9, 0, .ro, 0⟩, ⟨16, 16, .ro, 0⟩, ⟨17, 17, .ro, 0⟩]),
   (0x10C, 0, [⟨10, 0, .ro, 0⟩, ⟨26, 16, .ro, 0⟩]),
   (0x110, 0, [⟨9, 0, .rw, 0⟩]),
   (0x114, 0, [⟨2, 0, .ro, 0⟩, ⟨3, 3, .ro, 0⟩]),
   (0x118, 0, [⟨31, 0, .rw, 0x1000000⟩]),
   (0x120, 1, [⟨31, 0, .ro, 0⟩]),
   (0x124, 2, [⟨31, 0, .ro, 0⟩]),
   (0x128, 1, [⟨31, 0, .ro, 0⟩]),
   (0x12C, 2, [⟨31, 0, .ro, 0⟩]),
   (0x130, 1, [⟨31, 0, .ro, 0⟩]),
   (0x134, 2, [⟨31, 0, .ro, 0⟩]),
   (0x138, 1, [⟨31, 0, .ro, 0⟩]),
   (0x13C, 2, [⟨31, 0, .ro, 0⟩])]

/-- The registers of R229: offset, 0 for one word, 1 and 2 for the low and high word of a pair, fields. -/
def soRows : List RegRow :=
  [(0x100, 0, [⟨16, 0, .rw, 0⟩]),
   (0x108, 1, [⟨31, 0, .rw, 0⟩]),
   (0x10C, 2, [⟨31, 0, .rw, 0⟩]),
   (0x110, 1, [⟨31, 0, .wo, 0⟩]),
   (0x114, 2, [⟨31, 0, .wo, 0⟩])]

/-- The registers of R230: offset, 0 for one word, 1 and 2 for the low and high word of a pair, fields. -/
def ctxRows : List RegRow :=
  [(0x100, 0, [⟨13, 0, .rw, 0⟩]),
   (0x104, 0, [⟨0, 0, .rw, 0⟩, ⟨1, 1, .rw, 0⟩, ⟨8, 8, .wo, 0⟩]),
   (0x108, 0, [⟨0, 0, .ro, 0⟩, ⟨7, 1, .ro, 0⟩, ⟨8, 8, .ro, 0⟩]),
   (0x10C, 0, [⟨12, 0, .ro, 0⟩]),
   (0x110, 1, [⟨31, 0, .rw, 0⟩]),
   (0x114, 2, [⟨31, 0, .rw, 0⟩])]

/-- The registers of R260: offset, 0 for one word, 1 and 2 for the low and high word of a pair, fields. -/
def memRows : List RegRow :=
  [(0x100, 0, [⟨19, 0, .rw, 0x400⟩]),
   (0x104, 0, [⟨19, 0, .rw, 0x800⟩]),
   (0x108, 0, [⟨15, 0, .rw, 0x10⟩]),
   (0x10C, 0, [⟨7, 0, .rw, 4⟩]),
   (0x110, 0, [⟨19, 0, .ro, 0⟩]),
   (0x114, 0, [⟨19, 0, .ro, 0⟩]),
   (0x118, 0, [⟨20, 0, .ro, 0⟩]),
   (0x11C, 0, [⟨20, 0, .ro, 0⟩]),
   (0x120, 0, [⟨20, 0, .ro, 0⟩]),
   (0x124, 0, [⟨20, 0, .ro, 0⟩]),
   (0x128, 0, [⟨8, 0, .ro, 0x100⟩]),
   (0x12C, 0, [⟨19, 0, .ro, 0⟩]),
   (0x130, 0, [⟨20, 0, .rw, 0⟩]),
   (0x134, 0, [⟨20, 0, .rw, 0⟩]),
   (0x138, 0, [⟨13, 0, .rw, 0⟩, ⟨16, 16, .rw, 0⟩, ⟨18, 17, .rw, 0⟩, ⟨19, 19, .rw, 0⟩]),
   (0x13C, 0, [⟨16, 0, .rw, 0⟩]),
   (0x140, 0, [⟨3, 0, .wo, 0⟩]),
   (0x144, 0, [⟨3, 0, .ro, 0⟩, ⟨28, 8, .ro, 0⟩]),
   (0x150, 0, [⟨13, 0, .rw, 0⟩]),
   (0x154, 0, [⟨20, 0, .rw, 0x1fffff⟩]),
   (0x158, 0, [⟨20, 0, .rw, 0x1fffff⟩]),
   (0x15C, 0, [⟨20, 0, .ro, 0⟩]),
   (0x160, 0, [⟨20, 0, .ro, 0⟩]),
   (0x164, 0, [⟨20, 0, .ro, 0⟩])] ++
  [(0x168, 0, [⟨0, 0, .ro, 0⟩]),
   (0x16C, 0, [⟨20, 0, .ro, 0⟩]),
   (0x170, 0, [⟨20, 0, .rw, 0⟩]),
   (0x174, 0, [⟨0, 0, .ro, 0⟩, ⟨1, 1, .ro, 0⟩, ⟨2, 2, .ro, 0⟩, ⟨3, 3, .ro, 0⟩, ⟨5, 4, .ro, 0⟩, ⟨6, 6, .ro, 0⟩, ⟨16, 7, .ro, 0⟩, ⟨26, 17, .ro, 0⟩]),
   (0x178, 0, [⟨13, 0, .ro, 0⟩, ⟨31, 16, .ro, 0⟩]),
   (0x180, 1, [⟨31, 0, .ro, 0⟩]),
   (0x184, 2, [⟨31, 0, .ro, 0⟩]),
   (0x188, 1, [⟨31, 0, .ro, 0⟩]),
   (0x18C, 2, [⟨31, 0, .ro, 0⟩]),
   (0x190, 1, [⟨31, 0, .ro, 0⟩]),
   (0x194, 2, [⟨31, 0, .ro, 0⟩]),
   (0x198, 1, [⟨31, 0, .ro, 0⟩]),
   (0x19C, 2, [⟨31, 0, .ro, 0⟩]),
   (0x1A0, 1, [⟨31, 0, .ro, 0⟩]),
   (0x1A4, 2, [⟨31, 0, .ro, 0⟩])]

/-- The registers of R278: offset, 0 for one word, 1 and 2 for the low and high word of a pair, fields. -/
def dmaChanRows : List RegRow :=
  [(0x000, 0, [⟨31, 0, .ro, 0⟩]),
   (0x004, 0, [⟨31, 0, .ro, 0⟩]),
   (0x008, 0, [⟨31, 0, .ro, 0⟩]),
   (0x00C, 0, [⟨31, 0, .ro, 0⟩]),
   (0x010, 0, [⟨31, 0, .ro, 0⟩]),
   (0x014, 0, [⟨31, 0, .ro, 0⟩]),
   (0x018, 0, [⟨31, 0, .ro, 0⟩]),
   (0x01C, 0, [⟨31, 0, .ro, 0⟩]),
   (0x020, 0, [⟨31, 0, .ro, 0⟩]),
   (0x024, 0, [⟨31, 0, .ro, 0⟩]),
   (0x028, 0, [⟨31, 0, .ro, 0⟩]),
   (0x02C, 0, [⟨31, 0, .ro, 0⟩]),
   (0x030, 0, [⟨31, 0, .ro, 0⟩]),
   (0x034, 0, [⟨31, 0, .ro, 0⟩]),
   (0x038, 0, [⟨31, 0, .ro, 0⟩]),
   (0x03C, 0, [⟨31, 0, .ro, 0⟩]),
   (0x040, 0, [⟨0, 0, .ro, 0⟩, ⟨1, 1, .ro, 0⟩, ⟨2, 2, .ro, 0⟩, ⟨3, 3, .ro, 0⟩, ⟨4, 4, .ro, 0⟩, ⟨6, 5, .ro, 0⟩]),
   (0x044, 0, [⟨15, 0, .ro, 0⟩, ⟨31, 16, .ro, 0⟩]),
   (0x048, 0, [⟨15, 0, .ro, 0⟩, ⟨31, 16, .ro, 0⟩]),
   (0x04C, 0, [⟨16, 0, .rw, 0⟩]),
   (0x050, 0, [⟨31, 0, .rw, 0⟩]),
   (0x054, 0, [⟨31, 0, .rw, 0xffffffff⟩]),
   (0x058, 1, [⟨31, 0, .rw, 0⟩]),
   (0x05C, 2, [⟨31, 0, .rw, 0⟩])] ++
  [(0x060, 0, [⟨16, 0, .rw, 0⟩]),
   (0x064, 0, [⟨15, 0, .rw, 0⟩]),
   (0x068, 0, [⟨17, 0, .rw, 0x4000⟩]),
   (0x06C, 0, [⟨13, 0, .rw, 0⟩]),
   (0x070, 0, [⟨0, 0, .wo, 0⟩, ⟨1, 1, .wo, 0⟩]),
   (0x074, 0, [⟨17, 0, .ro, 0⟩]),
   (0x078, 1, [⟨31, 0, .ro, 0⟩]),
   (0x07C, 2, [⟨31, 0, .ro, 0⟩])]

/-- The registers of R302: offset, 0 for one word, 1 and 2 for the low and high word of a pair, fields. -/
def updRows : List RegRow :=
  [(0x100, 0, [⟨13, 0, .rw, 0⟩]),
   (0x104, 0, [⟨2, 0, .rw, 0⟩, ⟨3, 3, .rw, 0⟩]),
   (0x108, 0, [⟨31, 0, .rw, 0⟩]),
   (0x10C, 0, [⟨16, 0, .rw, 0⟩]),
   (0x110, 0, [⟨31, 0, .rw, 0⟩]),
   (0x114, 0, [⟨31, 0, .rw, 0⟩]),
   (0x118, 0, [⟨31, 0, .rw, 0⟩]),
   (0x11C, 0, [⟨31, 0, .rw, 0⟩]),
   (0x120, 0, [⟨31, 0, .rw, 0⟩]),
   (0x124, 0, [⟨31, 0, .rw, 0⟩]),
   (0x128, 0, [⟨31, 0, .rw, 0⟩]),
   (0x12C, 0, [⟨31, 0, .rw, 0⟩]),
   (0x130, 0, [⟨31, 0, .rw, 0⟩]),
   (0x134, 0, [⟨31, 0, .rw, 0⟩]),
   (0x138, 0, [⟨31, 0, .rw, 0⟩]),
   (0x13C, 0, [⟨31, 0, .rw, 0⟩]),
   (0x140, 0, [⟨31, 0, .rw, 0⟩]),
   (0x144, 0, [⟨31, 0, .rw, 0⟩]),
   (0x148, 0, [⟨31, 0, .rw, 0⟩]),
   (0x14C, 0, [⟨31, 0, .rw, 0x7f800000⟩]),
   (0x150, 1, [⟨31, 0, .rw, 0⟩]),
   (0x154, 2, [⟨31, 0, .rw, 0⟩]),
   (0x158, 1, [⟨31, 0, .rw, 0⟩]),
   (0x15C, 2, [⟨31, 0, .rw, 0⟩])] ++
  [(0x160, 1, [⟨31, 0, .rw, 0⟩]),
   (0x164, 2, [⟨31, 0, .rw, 0⟩]),
   (0x168, 0, [⟨16, 0, .rw, 0⟩]),
   (0x16C, 0, [⟨31, 0, .rw, 0⟩]),
   (0x170, 1, [⟨31, 0, .rw, 0⟩]),
   (0x174, 2, [⟨31, 0, .rw, 0⟩]),
   (0x178, 0, [⟨16, 0, .rw, 0⟩]),
   (0x17C, 0, [⟨1, 0, .ro, 0⟩, ⟨2, 2, .ro, 0⟩, ⟨3, 3, .ro, 0⟩]),
   (0x180, 0, [⟨3, 0, .wo, 0⟩]),
   (0x188, 1, [⟨31, 0, .ro, 0⟩]),
   (0x18C, 2, [⟨31, 0, .ro, 0⟩]),
   (0x190, 1, [⟨31, 0, .ro, 0⟩]),
   (0x194, 2, [⟨31, 0, .ro, 0⟩]),
   (0x198, 1, [⟨31, 0, .ro, 0⟩]),
   (0x19C, 2, [⟨31, 0, .ro, 0⟩])]

/-- The registers of R326: offset, 0 for one word, 1 and 2 for the low and high word of a pair, fields. -/
def redRows : List RegRow :=
  [(0x100, 0, [⟨5, 0, .rw, 0⟩]),
   (0x108, 1, [⟨31, 0, .rw, 0⟩]),
   (0x10C, 2, [⟨31, 0, .rw, 0⟩]),
   (0x110, 0, [⟨20, 0, .rw, 0⟩]),
   (0x114, 0, [⟨20, 0, .ro, 0⟩, ⟨24, 24, .ro, 0⟩]),
   (0x120, 0, [⟨11, 0, .rw, 0⟩]),
   (0x124, 0, [⟨0, 0, .rw, 0⟩, ⟨1, 1, .rw, 0⟩, ⟨2, 2, .rw, 0⟩, ⟨9, 4, .rw, 0⟩, ⟨13, 12, .rw, 0⟩, ⟨29, 16, .rw, 0⟩]),
   (0x128, 0, [⟨13, 0, .rw, 0⟩]),
   (0x12C, 0, [⟨13, 0, .rw, 0⟩]),
   (0x130, 0, [⟨24, 0, .rw, 1⟩]),
   (0x134, 0, [⟨13, 0, .rw, 0⟩]),
   (0x138, 1, [⟨31, 0, .rw, 0⟩]),
   (0x13C, 2, [⟨31, 0, .rw, 0⟩]),
   (0x140, 1, [⟨31, 0, .rw, 0⟩]),
   (0x144, 2, [⟨31, 0, .rw, 0⟩]),
   (0x148, 1, [⟨31, 0, .rw, 0⟩]),
   (0x14C, 2, [⟨31, 0, .rw, 0⟩]),
   (0x150, 1, [⟨31, 0, .rw, 0⟩]),
   (0x154, 2, [⟨31, 0, .rw, 0⟩]),
   (0x158, 0, [⟨15, 0, .rw, 0x3e8⟩, ⟨31, 16, .rw, 0x3e8⟩]),
   (0x15C, 0, [⟨15, 0, .rw, 0x3e8⟩]),
   (0x160, 0, [⟨1, 0, .ro, 0⟩, ⟨4, 2, .ro, 0⟩]),
   (0x164, 0, [⟨14, 0, .ro, 0⟩]),
   (0x180, 1, [⟨31, 0, .ro, 0⟩])] ++
  [(0x184, 2, [⟨31, 0, .ro, 0⟩]),
   (0x188, 1, [⟨31, 0, .ro, 0⟩]),
   (0x18C, 2, [⟨31, 0, .ro, 0⟩]),
   (0x190, 1, [⟨31, 0, .ro, 0⟩]),
   (0x194, 2, [⟨31, 0, .ro, 0⟩]),
   (0x198, 1, [⟨31, 0, .ro, 0⟩]),
   (0x19C, 2, [⟨31, 0, .ro, 0⟩])]

/-- The registers of R354: offset, 0 for one word, 1 and 2 for the low and high word of a pair, fields. -/
def ickRows : List RegRow :=
  [(0x100, 0, [⟨13, 0, .rwl, 0⟩, ⟨31, 31, .rwl, 0⟩]),
   (0x104, 0, [⟨5, 0, .rw, 0x20⟩]),
   (0x108, 0, [⟨3, 0, .rw, 1⟩, ⟨7, 4, .rw, 1⟩, ⟨11, 8, .rw, 1⟩, ⟨15, 12, .rw, 1⟩, ⟨19, 16, .rw, 1⟩, ⟨23, 20, .rw, 1⟩, ⟨27, 24, .rw, 1⟩]),
   (0x10C, 0, [⟨15, 0, .rw, 0x10⟩]),
   (0x110, 0, [⟨15, 0, .rw, 0x32⟩]),
   (0x114, 0, [⟨13, 0, .rw, 0⟩]),
   (0x118, 0, [⟨31, 0, .rw, 0⟩]),
   (0x11C, 0, [⟨23, 0, .ro, 0⟩]),
   (0x120, 0, [⟨15, 0, .rw, 0x64⟩]),
   (0x124, 0, [⟨7, 0, .rw, 8⟩])]

/-- The registers of R356: offset, 0 for one word, 1 and 2 for the low and high word of a pair, fields. -/
def portRows : List RegRow :=
  [(0x000, 0, [⟨0, 0, .rw, 0⟩, ⟨1, 1, .wo, 0⟩, ⟨7, 4, .rw, 0⟩]),
   (0x004, 0, [⟨2, 0, .ro, 0⟩, ⟨16, 3, .ro, 0⟩, ⟨21, 17, .ro, 0⟩, ⟨22, 22, .ro, 0⟩]),
   (0x008, 0, [⟨7, 0, .ro, 0⟩, ⟨11, 8, .ro, 0⟩]),
   (0x010, 1, [⟨31, 0, .ro, 0⟩]),
   (0x014, 2, [⟨31, 0, .ro, 0⟩]),
   (0x018, 1, [⟨31, 0, .ro, 0⟩]),
   (0x01C, 2, [⟨31, 0, .ro, 0⟩]),
   (0x020, 1, [⟨31, 0, .ro, 0⟩]),
   (0x024, 2, [⟨31, 0, .ro, 0⟩]),
   (0x028, 1, [⟨31, 0, .ro, 0⟩]),
   (0x02C, 2, [⟨31, 0, .ro, 0⟩]),
   (0x030, 1, [⟨31, 0, .ro, 0⟩]),
   (0x034, 2, [⟨31, 0, .ro, 0⟩]),
   (0x038, 1, [⟨31, 0, .ro, 0⟩]),
   (0x03C, 2, [⟨31, 0, .ro, 0⟩])]

/-- The registers of R380: offset, 0 for one word, 1 and 2 for the low and high word of a pair, fields. -/
def txnRows : List RegRow :=
  [(0x100, 0, [⟨23, 0, .rw, 0x2710⟩]),
   (0x104, 0, [⟨17, 0, .ro, 0⟩]),
   (0x108, 0, [⟨7, 0, .ro, 0⟩]),
   (0x110, 1, [⟨31, 0, .rw, 0⟩]),
   (0x114, 2, [⟨31, 0, .rw, 0⟩]),
   (0x118, 1, [⟨31, 0, .rw, 0⟩]),
   (0x11C, 2, [⟨31, 0, .rw, 0⟩]),
   (0x120, 1, [⟨31, 0, .rw, 0⟩]),
   (0x124, 2, [⟨31, 0, .rw, 0⟩]),
   (0x128, 0, [⟨3, 0, .wo, 0⟩, ⟨4, 4, .wo, 0⟩]),
   (0x12C, 0, [⟨0, 0, .ro, 0⟩, ⟨4, 1, .ro, 0⟩]),
   (0x130, 1, [⟨31, 0, .ro, 0⟩]),
   (0x134, 2, [⟨31, 0, .ro, 0⟩]),
   (0x140, 0, [⟨9, 0, .rw, 0⟩]),
   (0x144, 0, [⟨16, 0, .rw, 0⟩, ⟨31, 31, .rw, 0⟩]),
   (0x148, 1, [⟨31, 0, .rw, 0⟩]),
   (0x14C, 2, [⟨31, 0, .rw, 0⟩]),
   (0x150, 0, [⟨31, 0, .rw, 1⟩]),
   (0x154, 0, [⟨13, 0, .rw, 0⟩, ⟨30, 14, .rw, 0⟩, ⟨31, 31, .rw, 0⟩]),
   (0x158, 0, [⟨13, 0, .rw, 0⟩, ⟨30, 14, .rw, 0⟩, ⟨31, 31, .rw, 0⟩]),
   (0x15C, 0, [⟨13, 0, .rw, 0⟩, ⟨30, 14, .rw, 0⟩, ⟨31, 31, .rw, 0⟩]),
   (0x160, 0, [⟨13, 0, .rw, 0⟩, ⟨30, 14, .rw, 0⟩, ⟨31, 31, .rw, 0⟩]),
   (0x168, 1, [⟨31, 0, .ro, 0⟩]),
   (0x16C, 2, [⟨31, 0, .ro, 0⟩])]

/-- The registers of R399: offset, 0 for one word, 1 and 2 for the low and high word of a pair, fields. -/
def bndRows : List RegRow :=
  [(0x100, 0, [⟨1, 0, .rw, 0⟩]),
   (0x104, 0, [⟨16, 0, .rw, 0x2710⟩]),
   (0x108, 0, [⟨15, 0, .rw, 0x64⟩]),
   (0x10C, 0, [⟨16, 0, .rw, 0⟩]),
   (0x110, 1, [⟨31, 0, .rw, 0⟩]),
   (0x114, 2, [⟨31, 0, .rw, 0⟩]),
   (0x118, 0, [⟨31, 0, .rw, 0⟩]),
   (0x120, 1, [⟨31, 0, .rwl, 0⟩]),
   (0x124, 2, [⟨31, 0, .rwl, 0⟩]),
   (0x128, 0, [⟨0, 0, .ro, 0⟩, ⟨1, 1, .ro, 0⟩, ⟨2, 2, .ro, 0⟩, ⟨7, 4, .ro, 0⟩, ⟨8, 8, .ro, 0⟩]),
   (0x12C, 0, [⟨16, 0, .ro, 0⟩]),
   (0x130, 1, [⟨31, 0, .ro, 0⟩]),
   (0x134, 2, [⟨31, 0, .ro, 0⟩]),
   (0x138, 0, [⟨6, 0, .ro, 0⟩]),
   (0x140, 1, [⟨31, 0, .ro, 0xffffffff⟩]),
   (0x144, 2, [⟨31, 0, .ro, 0xffffffff⟩]),
   (0x148, 1, [⟨31, 0, .ro, 0⟩]),
   (0x14C, 2, [⟨31, 0, .ro, 0⟩])]

/-- The registers of R423: offset, 0 for one word, 1 and 2 for the low and high word of a pair, fields. -/
def relRows : List RegRow :=
  [(0x100, 0, [⟨31, 0, .ro, 1⟩]),
   (0x104, 0, [⟨15, 0, .rw, 0x40⟩]),
   (0x108, 0, [⟨7, 0, .rw, 3⟩, ⟨23, 8, .rw, 0x2d0⟩]),
   (0x10C, 0, [⟨15, 0, .rw, 0x18⟩]),
   (0x110, 0, [⟨15, 0, .rw, 0x18⟩]),
   (0x114, 0, [⟨31, 0, .rw, 0xf4240⟩]),
   (0x118, 0, [⟨15, 0, .rw, 0x18⟩]),
   (0x11C, 0, [⟨15, 0, .rw, 0x3e8⟩]),
   (0x120, 0, [⟨15, 0, .rw, 0x18⟩]),
   (0x124, 0, [⟨3, 0, .wo, 0⟩]),
   (0x128, 0, [⟨3, 0, .wo, 0⟩]),
   (0x12C, 0, [⟨1, 0, .ro, 0⟩, ⟨3, 2, .ro, 0⟩, ⟨5, 4, .ro, 0⟩, ⟨7, 6, .ro, 0⟩]),
   (0x130, 0, [⟨3, 0, .ro, 0⟩, ⟨4, 4, .ro, 0⟩]),
   (0x134, 0, [⟨13, 0, .rw, 0⟩]),
   (0x138, 0, [⟨13, 0, .rw, 0⟩, ⟨16, 16, .ro, 0⟩]),
   (0x13C, 0, [⟨19, 0, .ro, 0⟩]),
   (0x140, 1, [⟨31, 0, .ro, 0⟩]),
   (0x144, 2, [⟨31, 0, .ro, 0⟩]),
   (0x148, 1, [⟨31, 0, .ro, 0⟩]),
   (0x14C, 2, [⟨31, 0, .ro, 0⟩]),
   (0x150, 1, [⟨31, 0, .ro, 0⟩]),
   (0x154, 2, [⟨31, 0, .ro, 0⟩]),
   (0x158, 1, [⟨31, 0, .ro, 0⟩]),
   (0x15C, 2, [⟨31, 0, .ro, 0⟩])]

/-- The registers of R440: offset, 0 for one word, 1 and 2 for the low and high word of a pair, fields. -/
def funcRows : List RegRow :=
  [(0x100, 0, [⟨31, 0, .ro, 0⟩]),
   (0x104, 0, [⟨31, 0, .ro, 0⟩]),
   (0x108, 0, [⟨31, 0, .ro, 0⟩]),
   (0x10C, 0, [⟨31, 0, .ro, 0⟩]),
   (0x110, 0, [⟨31, 0, .ro, 0⟩]),
   (0x114, 0, [⟨31, 0, .ro, 0⟩]),
   (0x118, 0, [⟨31, 0, .ro, 0⟩]),
   (0x11C, 0, [⟨31, 0, .ro, 0⟩]),
   (0x120, 0, [⟨31, 0, .rw, 0⟩]),
   (0x124, 0, [⟨31, 0, .rw, 0⟩]),
   (0x128, 0, [⟨31, 0, .rw, 0⟩]),
   (0x12C, 0, [⟨31, 0, .rw, 0⟩]),
   (0x130, 0, [⟨31, 0, .rw, 0⟩]),
   (0x134, 0, [⟨31, 0, .rw, 0⟩]),
   (0x138, 0, [⟨31, 0, .rw, 0⟩]),
   (0x13C, 0, [⟨31, 0, .rw, 0⟩]),
   (0x140, 0, [⟨0, 0, .rw, 0⟩, ⟨1, 1, .ro, 0⟩]),
   (0x144, 0, [⟨0, 0, .ro, 0⟩, ⟨7, 1, .ro, 0⟩]),
   (0x148, 1, [⟨31, 21, .rw, 0⟩]),
   (0x14C, 2, [⟨11, 0, .rw, 0⟩]),
   (0x160, 0, [⟨7, 0, .rw, 0⟩]),
   (0x164, 0, [⟨16, 0, .rw, 0⟩, ⟨31, 31, .rw, 0⟩]),
   (0x170, 0, [⟨9, 0, .rw, 0⟩]),
   (0x174, 0, [⟨16, 0, .rw, 0⟩, ⟨28, 18, .rw, 0⟩, ⟨31, 31, .rw, 0⟩])] ++
  [(0x178, 1, [⟨31, 0, .rw, 0⟩]),
   (0x17C, 2, [⟨31, 0, .rw, 0⟩]),
   (0x180, 0, [⟨31, 0, .rw, 0⟩]),
   (0x184, 0, [⟨10, 0, .rw, 0⟩, ⟨31, 31, .rw, 0⟩]),
   (0x190, 0, [⟨6, 0, .rw, 1⟩]),
   (0x194, 0, [⟨16, 0, .rw, 0⟩]),
   (0x198, 0, [⟨17, 0, .rw, 0⟩])]

/-- The registers of R441: offset, 0 for one word, 1 and 2 for the low and high word of a pair, fields. -/
def hostRows : List RegRow :=
  [(0x100, 0, [⟨2, 0, .ro, 0⟩, ⟨6, 3, .ro, 0⟩, ⟨7, 7, .ro, 0⟩, ⟨14, 8, .ro, 0⟩]),
   (0x104, 0, [⟨2, 0, .ro, 0⟩, ⟨6, 3, .ro, 0⟩, ⟨7, 7, .ro, 0⟩, ⟨14, 8, .ro, 0⟩]),
   (0x108, 0, [⟨1, 0, .rwl, 0⟩]),
   (0x110, 0, [⟨13, 0, .rw, 0⟩]),
   (0x114, 0, [⟨14, 0, .rw, 1⟩]),
   (0x118, 0, [⟨0, 0, .wo, 0⟩, ⟨7, 1, .wo, 0⟩, ⟨8, 8, .wo, 0⟩])]

/-- The registers of R467: offset, 0 for one word, 1 and 2 for the low and high word of a pair, fields. -/
def vesperRows : List RegRow :=
  [(0x100, 0, [⟨3, 0, .ro, 0⟩, ⟨4, 4, .ro, 0⟩, ⟨5, 5, .ro, 0⟩, ⟨6, 6, .ro, 0⟩, ⟨7, 7, .ro, 0⟩, ⟨8, 8, .ro, 0⟩, ⟨9, 9, .ro, 0⟩]),
   (0x104, 0, [⟨31, 0, .ro, 0⟩]),
   (0x108, 0, [⟨3, 0, .ro, 0⟩, ⟨14, 8, .ro, 0⟩]),
   (0x110, 0, [⟨0, 0, .wo, 0⟩, ⟨1, 1, .wo, 0⟩, ⟨2, 2, .wo, 0⟩]),
   (0x114, 0, [⟨2, 0, .ro, 0⟩, ⟨8, 8, .ro, 0⟩, ⟨13, 12, .ro, 0⟩, ⟨14, 14, .ro, 0⟩]),
   (0x120, 0, [⟨31, 0, .ro, 0⟩]),
   (0x124, 0, [⟨31, 0, .ro, 0⟩]),
   (0x128, 0, [⟨31, 0, .ro, 0⟩]),
   (0x12C, 0, [⟨31, 0, .ro, 0⟩]),
   (0x130, 0, [⟨31, 0, .ro, 0⟩]),
   (0x134, 0, [⟨31, 0, .ro, 0⟩]),
   (0x138, 0, [⟨31, 0, .ro, 0⟩]),
   (0x13C, 0, [⟨31, 0, .ro, 0⟩]),
   (0x140, 0, [⟨31, 0, .wo, 0⟩]),
   (0x144, 0, [⟨31, 0, .wo, 0⟩]),
   (0x148, 0, [⟨31, 0, .wo, 0⟩]),
   (0x14C, 0, [⟨31, 0, .wo, 0⟩]),
   (0x150, 0, [⟨31, 0, .wo, 0⟩]),
   (0x154, 0, [⟨31, 0, .wo, 0⟩]),
   (0x158, 0, [⟨31, 0, .wo, 0⟩]),
   (0x15C, 0, [⟨31, 0, .wo, 0⟩]),
   (0x160, 0, [⟨31, 0, .wo, 0⟩]),
   (0x164, 0, [⟨31, 0, .wo, 0⟩]),
   (0x168, 0, [⟨31, 0, .wo, 0⟩])] ++
  [(0x16C, 0, [⟨31, 0, .wo, 0⟩]),
   (0x170, 0, [⟨31, 0, .wo, 0⟩]),
   (0x174, 0, [⟨31, 0, .wo, 0⟩]),
   (0x178, 0, [⟨31, 0, .wo, 0⟩]),
   (0x17C, 0, [⟨31, 0, .wo, 0⟩]),
   (0x180, 0, [⟨31, 0, .wo, 0⟩]),
   (0x184, 0, [⟨31, 0, .wo, 0⟩]),
   (0x188, 0, [⟨31, 0, .wo, 0⟩]),
   (0x18C, 0, [⟨31, 0, .wo, 0⟩]),
   (0x190, 0, [⟨31, 0, .wo, 0⟩]),
   (0x194, 0, [⟨31, 0, .wo, 0⟩]),
   (0x198, 0, [⟨31, 0, .wo, 0⟩]),
   (0x19C, 0, [⟨31, 0, .wo, 0⟩]),
   (0x1A0, 0, [⟨0, 0, .rw, 1⟩, ⟨1, 1, .rw, 1⟩]),
   (0x1A4, 0, [⟨31, 0, .rw, 0⟩]),
   (0x1A8, 0, [⟨15, 0, .rw, 0xc3c0⟩]),
   (0x1AC, 0, [⟨7, 0, .ro, 0⟩])]

/-- The registers of R490: offset, 0 for one word, 1 and 2 for the low and high word of a pair, fields. -/
def powerRows : List RegRow :=
  [(0x100, 0, [⟨2, 0, .ro, 0⟩, ⟨5, 4, .ro, 0⟩, ⟨11, 8, .ro, 0⟩, ⟨12, 12, .ro, 0⟩, ⟨13, 13, .ro, 0⟩]),
   (0x104, 0, [⟨0, 0, .wo, 0⟩, ⟨1, 1, .wo, 0⟩, ⟨2, 2, .wo, 0⟩, ⟨3, 3, .wo, 0⟩]),
   (0x108, 0, [⟨10, 0, .rw, 0x578⟩]),
   (0x10C, 0, [⟨10, 0, .rw, 0x41a⟩]),
   (0x110, 0, [⟨11, 0, .rw, 0x640⟩]),
   (0x114, 0, [⟨15, 0, .rw, 0x64⟩]),
   (0x118, 0, [⟨10, 0, .ro, 0⟩, ⟨26, 16, .ro, 0⟩]),
   (0x11C, 0, [⟨10, 0, .ro, 0⟩, ⟨26, 16, .ro, 0⟩]),
   (0x120, 0, [⟨15, 0, .ro, 0⟩]),
   (0x124, 0, [⟨7, 0, .ro, 0⟩, ⟨15, 8, .ro, 0⟩, ⟨23, 16, .ro, 0⟩, ⟨31, 24, .ro, 0⟩]),
   (0x128, 0, [⟨7, 0, .ro, 0⟩, ⟨15, 8, .ro, 0⟩, ⟨23, 16, .ro, 0⟩, ⟨31, 24, .ro, 0⟩]),
   (0x12C, 0, [⟨7, 0, .ro, 0⟩, ⟨15, 8, .ro, 0⟩, ⟨23, 16, .ro, 0⟩, ⟨31, 24, .ro, 0⟩]),
   (0x130, 0, [⟨7, 0, .ro, 0⟩, ⟨15, 8, .ro, 0⟩, ⟨23, 16, .ro, 0⟩, ⟨31, 24, .ro, 0⟩]),
   (0x138, 1, [⟨31, 0, .ro, 0⟩]),
   (0x13C, 2, [⟨31, 0, .ro, 0⟩]),
   (0x140, 0, [⟨31, 0, .ro, 0⟩]),
   (0x144, 0, [⟨10, 0, .ro, 0⟩]),
   (0x148, 0, [⟨0, 0, .wo, 0⟩]),
   (0x14C, 0, [⟨31, 0, .ro, 0⟩]),
   (0x150, 0, [⟨7, 0, .ro, 0⟩, ⟨15, 8, .ro, 0⟩, ⟨23, 16, .ro, 0⟩, ⟨31, 24, .ro, 0⟩])]

/-- The registers of R494: offset, 0 for one word, 1 and 2 for the low and high word of a pair, fields. -/
def hdrRows : List RegRow :=
  [(0x000, 0, [⟨7, 0, .ro, 1⟩, ⟨15, 8, .ro, 0⟩, ⟨31, 16, .ro, 0⟩]),
   (0x004, 0, [⟨0, 0, .ro, 1⟩, ⟨1, 1, .ro, 0⟩, ⟨2, 2, .ro, 0⟩]),
   (0x008, 0, [⟨0, 0, .rw, 0⟩, ⟨1, 1, .wo, 0⟩, ⟨2, 2, .rw, 0⟩, ⟨3, 3, .wo, 0⟩, ⟨4, 4, .wo, 0⟩]),
   (0x00C, 0, [⟨0, 0, .ro, 0⟩, ⟨5, 1, .ro, 0⟩, ⟨8, 8, .ro, 0⟩, ⟨9, 9, .ro, 0⟩]),
   (0x010, 0, [⟨31, 0, .w1c, 0⟩]),
   (0x014, 0, [⟨31, 0, .rw, 0xffffffff⟩]),
   (0x020, 0, [⟨31, 0, .ro, 0⟩]),
   (0x024, 0, [⟨31, 0, .ro, 0⟩]),
   (0x028, 0, [⟨31, 0, .ro, 0⟩]),
   (0x02C, 0, [⟨31, 0, .ro, 0⟩]),
   (0x030, 0, [⟨31, 0, .ro, 0⟩]),
   (0x034, 0, [⟨31, 0, .ro, 0⟩]),
   (0x038, 0, [⟨31, 0, .ro, 0⟩]),
   (0x03C, 0, [⟨31, 0, .ro, 0⟩]),
   (0x040, 0, [⟨31, 0, .ro, 0⟩]),
   (0x044, 0, [⟨31, 0, .ro, 0⟩]),
   (0x048, 0, [⟨31, 0, .ro, 0⟩]),
   (0x04C, 0, [⟨31, 0, .ro, 0⟩])]

/-- The registers of R505: offset, 0 for one word, 1 and 2 for the low and high word of a pair, fields. -/
def racRows : List RegRow :=
  [(0x100, 0, [⟨11, 0, .rw, 0⟩]),
   (0x104, 0, [⟨11, 0, .ro, 0⟩, ⟨31, 31, .ro, 0⟩]),
   (0x108, 0, [⟨31, 0, .ro, 0⟩])]

/-- The pages of core c by offset k (R503). -/
def corePage (c : CoreId) (k : Nat) : PKind :=
  if k == 0 then .ctl c else if k == 1 then .sch c else if k == 2 then .eq c else if k == 3 then .arr c
  else if k == 4 then .acc c else if k == 5 then .vec c else if k == 6 then .cdma c
  else if 8 ≤ k ∧ k < 12 then .tr c (Fin.ofNat 4 (k - 8))
  else if 32 ≤ k then .ts c (Fin.ofNat 32 (k - 32)) else .unassigned

/-- The page of function f of port p has this number in the model: 0x2000 + (65p + f) × 16 (function pages have none in
the local map, R503); the nine pages after it are its MSI-X table and its pending-bit array (R429). -/
def funcPage (p : Fin 2) (f : Fin 65) : Nat := 0x2000 + (65 * p.val + f.val) * 16

/-- The pages from 0x2000, as `funcPage` numbers them. -/
def funcPageKind (n : Nat) : PKind :=
  let u := (n - 0x2000) / 16
  let k := (n - 0x2000) % 16
  let p := Fin.ofNat 2 (u / 65)
  let f := Fin.ofNat 65 (u % 65)
  if k == 0 then .func p f else if k < 9 then .msix p f (Fin.ofNat 8 (k - 1)) else if k == 9 then .pba p f else .unassigned

/-- The page index (R503). -/
def pageKind (n : Nat) : PKind :=
  if n == 0x000 then .rac else if n == 0x001 then .vesper else if n == 0x002 then .power else if n == 0x003 then .rel
  else if n == 0x004 then .host else if n == 0x005 then .mem else if n == 0x006 then .upd else if n == 0x007 then .bnd
  else if n == 0x008 then .so else if n == 0x009 then .ctx else if n == 0x010 then .cal else if n == 0x011 then .red
  else if n == 0x012 then .ick else if n == 0x013 then .txn else if n == 0x014 then .mdma
  else if 0x018 ≤ n ∧ n < 0x01C then .edge (Fin.ofNat 4 (n - 0x018))
  else if 0x100 ≤ n ∧ n < 0x200 then corePage (Fin.ofNat 4 ((n - 0x100) / 0x40)) (n % 0x40)
  else if 0x2000 ≤ n ∧ n < 0x2000 + 130 * 16 then funcPageKind n
  else .unassigned

/-- The number of core c's page at offset k (R503). -/
def coreP (c : CoreId) (k : Nat) : Nat := 0x100 + 0x40 * c.val + k

/-- TYPE and INSTANCE of a page (R494, R503). -/
def pageIdent : PKind → Nat × Nat
  | .rac => (0x0001, 0)
  | .vesper => (0x0002, 0)
  | .power => (0x0003, 0)
  | .rel => (0x0004, 0)
  | .host => (0x0005, 0)
  | .mem => (0x0006, 0)
  | .upd => (0x0007, 0)
  | .bnd => (0x0008, 0)
  | .so => (0x0009, 0)
  | .ctx => (0x000A, 0)
  | .cal => (0x0010, 0)
  | .red => (0x0011, 0)
  | .ick => (0x0012, 0)
  | .txn => (0x0013, 0)
  | .mdma => (0x0014, 0)
  | .edge e => (0x0016, e.val)
  | .ctl c => (0x0020, c.val)
  | .sch c => (0x0021, c.val)
  | .eq c => (0x0022, c.val)
  | .arr c => (0x0023, c.val)
  | .acc c => (0x0024, c.val)
  | .vec c => (0x0025, c.val)
  | .cdma c => (0x0026, c.val)
  | .tr c j => (0x0027, 4 * c.val + j.val)
  | .ts c j => (0x0028, 32 * c.val + j.val)
  | .func p f => (0x0030, 128 * p.val + f.val)
  | .msix _ _ _ => (0, 0)
  | .pba _ _ => (0, 0)
  | .unassigned => (0, 0)

/-- How many event flags a page defines, from bit 0 (the chapters' event tables). -/
def pageEvents : PKind → Nat
  | .rac => 6
  | .vesper => 8
  | .power => 8
  | .rel => 8
  | .host => 5
  | .mem => 8
  | .upd => 8
  | .bnd => 5
  | .so => 0
  | .ctx => 1
  | .cal => 7
  | .red => 8
  | .ick => 4
  | .txn => 8
  | .mdma => 6
  | .edge _ => 8
  | .ctl _ => 5
  | .sch _ => 4
  | .eq _ => 2
  | .arr _ => 2
  | .acc _ => 7
  | .vec _ => 6
  | .cdma _ => 6
  | .tr _ _ => 0
  | .ts _ _ => 0
  | .func _ _ => 0
  | .msix _ _ _ => 0
  | .pba _ _ => 0
  | .unassigned => 0

/-- The block lies on Meridian (R494, R503). -/
def onMeridian : PKind → Bool
  | .cal => true
  | .red => true
  | .ick => true
  | .txn => true
  | .mdma => true
  | .edge _ => true
  | .ctl _ => true
  | .sch _ => true
  | .eq _ => true
  | .arr _ => true
  | .acc _ => true
  | .vec _ => true
  | .cdma _ => true
  | .tr _ _ => true
  | .ts _ _ => true
  | .rac => false
  | .vesper => false
  | .power => false
  | .rel => false
  | .host => false
  | .mem => false
  | .upd => false
  | .bnd => false
  | .so => false
  | .ctx => false
  | .func _ _ => false
  | .msix _ _ _ => false
  | .pba _ _ => false
  | .unassigned => false

/-- The row of an offset in a list of rows: how it pairs and its fields; nothing there is (0, []). -/
def rowAt : List RegRow → Nat → Nat × List Fld
  | [], _ => (0, [])
  | (o, h, fs) :: t, off => if o == off then (h, fs) else rowAt t off

/-- A 32-bit read-write word with reset 0. -/
def plainWord : List Fld := [⟨31, 0, .rw, 0⟩]

/-- Registers of a channel block: channel ch at 0x100 + 0x80 × ch, and for the module-wide page the staging images at
0x500 + 0x40 × ch (R278). What a core's page reserves reads zero and takes writes without effect (R6). -/
def dmaAt (wide : Bool) (off : Nat) : Nat × List Fld :=
  let o := (off - 0x100) % 0x80
  if 0x100 ≤ off ∧ off < 0x500 then
    (if !wide && (o = 0x60 || o = 0x64 || o = 0x6C || o = 0x70) then (0, [⟨31, 0, .wo, 0⟩]) else rowAt dmaChanRows o)
  else if wide ∧ 0x500 ≤ off ∧ off < 0x700 ∧ off % 4 = 0 then
    (if 0x10 ≤ off % 0x40 ∧ off % 0x40 < 0x20 then (if off % 8 = 0 then 1 else 2) else 0,
      if off % 0x40 = 0 then [⟨17, 0, .rw, 0⟩] else plainWord)
  else (0, [])

/-- Registers of a function page (R440): those marked PF only on the physical function's; the doorbells are pairs. -/
def funcAt (f : Nat) (off : Nat) : Nat × List Fld :=
  if 0x800 ≤ off ∧ off < 0x1000 ∧ off % 4 = 0 then (if off % 8 == 0 then 1 else 2, [⟨31, 0, .wo, 0⟩])
  else if f ≠ 0 ∧ 0x184 ≤ off then (0, [])
  else rowAt funcRows off

/-- The block-specific register at an offset from 0x100. -/
def blockAt (k : PKind) (off : Nat) : Nat × List Fld :=
  match k with
  | .rac => rowAt racRows off
  | .vesper => rowAt vesperRows off
  | .power => rowAt powerRows off
  | .rel => rowAt relRows off
  | .host => rowAt hostRows off
  | .mem => rowAt memRows off
  | .upd => rowAt updRows off
  | .bnd => rowAt bndRows off
  | .so => rowAt soRows off
  | .ctx => rowAt ctxRows off
  | .cal => rowAt calRows off
  | .red => rowAt redRows off
  | .ick => rowAt ickRows off
  | .txn => rowAt txnRows off
  | .mdma => dmaAt true off
  | .edge _ => if 0x100 ≤ off ∧ off < 0x280 then rowAt portRows ((off - 0x100) % 0x40) else (0, [])
  | .ctl _ => rowAt ctlRows off
  | .sch _ => rowAt schRows off
  | .eq _ => rowAt eqRows off
  | .arr _ => rowAt arrRows off
  | .acc _ => if 0x100 ≤ off ∧ off < 0x200 then rowAt accGroupRows ((off - 0x100) % 0x40) else (0, [])
  | .vec _ => rowAt vecRows off
  | .cdma _ => dmaAt false off
  | .tr _ _ => if 0x100 ≤ off ∧ off < 0x900 then rowAt trRegRows ((off - 0x100) % 0x20) else (0, [])
  | .ts _ _ => if 0x100 ≤ off ∧ off < 0x900 then rowAt taskSlotRows ((off - 0x100) % 0x40) else (0, [])
  | .func _ f => funcAt f.val off
  | .msix _ _ _ => (0, [])
  | .pba _ _ => (0, [])
  | .unassigned => (0, [])

/-- The register at an offset of a page (R492, R494): how it pairs and its fields; no fields where the offset is unassigned.
The MSI-X table has 2,048 entries of 16 bytes on a physical function and 64 on a virtual one (R429); an entry's words are
address low and high, data and vector control (PRESUMED, log entry 10). The pending-bit array is read only. -/
def regAt (n off : Nat) : Nat × List Fld :=
  match pageKind n with
  | .msix _ f k =>
    if off % 4 = 0 ∧ (f.val = 0 ∨ (k.val = 0 ∧ off < 1024)) then
      (if off % 8 == 0 then 3 else 4, if off % 16 == 12 then [⟨0, 0, .rw, 1⟩] else plainWord) else (0, [])
  | .pba _ _ =>
    if off % 4 = 0 ∧ off < 0x100 then (if off % 8 == 0 then 1 else 2, [⟨31, 0, .ro, 0⟩]) else (0, [])
  | .unassigned => (0, [])
  | k => if off < 0x100 then rowAt hdrRows off else blockAt k off

/-- The Reset value of a register word (R15). -/
def resetOf (fs : List Fld) : Nat := fs.foldl (fun a f => a + f.reset * 2 ^ f.lo) 0

/-- The bits of the fields of a word whose access code satisfies p. -/
def maskOf (p : Acc → Bool) (fs : List Fld) : Nat :=
  fs.foldl (fun a f => if p f.acc then a + (2 ^ (f.hi - f.lo + 1) - 1) * 2 ^ f.lo else a) 0

end Sys2Proof.Machine
end

