-- ==== Sys2Proof/Machine/Ops.lean ====
section
/-! DEFINITION. The named operations on the state: tables, byte memory, registers, synchronisation objects, free values,
time, and logging an event (R3). -/
namespace Sys2Proof.Machine

/-! ### Tables -/

/-- The entry at a key, if there is one. -/
def mfind {α : Type} : Map α → Nat → Option α
  | [], _ => none
  | (a, v) :: t, k => if a = k then some v else mfind t k

/-- The entry at a key, or d. -/
def mget {α : Type} (d : α) (m : Map α) (k : Nat) : α := (mfind m k).getD d

/-- The table with v at k, keys rising. -/
def mset {α : Type} : Map α → Nat → α → Map α
  | [], k, v => [(k, v)]
  | (a, w) :: t, k, v =>
    if k < a then (k, v) :: (a, w) :: t else if k = a then (k, v) :: t else (a, w) :: mset t k v

/-- The table without k. -/
def mdel {α : Type} (m : Map α) (k : Nat) : Map α := m.filter (fun p => decide (p.1 ≠ k))

/-- The table that reads v at k where an absent key reads d: d itself is not listed. -/
def mput {α : Type} [DecidableEq α] (d : α) (m : Map α) (k : Nat) (v : α) : Map α :=
  if v = d then mdel m k else mset m k v

/-- The table with the entry at k (d when absent) replaced by f of it. -/
def mmod {α : Type} (d : α) (m : Map α) (k : Nat) (f : α → α) : Map α := mset m k (f (mget d m k))

/-- A table without the keys from a up to b. -/
def dropRange {α : Type} (a b : Nat) (m : Map α) : Map α := m.filter (fun p => decide (p.1 < a ∨ b ≤ p.1))

/-- The keys with k inserted in rising order, once. -/
def kins : List Nat → Nat → List Nat
  | [], k => [k]
  | a :: t, k => if k < a then k :: a :: t else if k = a then a :: t else a :: kins t k

/-- The list without k. -/
def kdel (l : List Nat) (k : Nat) : List Nat := l.filter (fun a => decide (a ≠ k))

/-- A list cut into pieces of n, by fuel. -/
def chunks {α : Type} (n : Nat) : Nat → List α → List (List α)
  | 0, _ => []
  | k + 1, l => match l with
    | [] => []
    | a :: t => ((a :: t).take n) :: chunks n k ((a :: t).drop n)

/-! ### Byte memory (R231) -/

/-- The canonical form: addresses strictly rising, and no byte equal to what an unlisted address reads as, which is zero
(R160, R234, R237, R238). -/
def Memory.wf (m : List Host.Cell) : Bool :=
  decide (m.Pairwise (fun a b => a.1 < b.1)) && m.all (fun p => decide (p.2 ≠ 0))

/-- The byte at a local address. (DEDUCED, log entry 81.) -/
def memGet (m : List Host.Cell) (a : Nat) : Byte := mget (0 : Byte) m a

/-- Memory with one byte written. -/
def memPut (m : List Host.Cell) (a : Nat) (b : Byte) : List Host.Cell := mput (0 : Byte) m a b

/-- Memory with bytes written from an address upwards. -/
def memPutAll (m : List Host.Cell) (a : Nat) : List Byte → List Host.Cell
  | [] => m
  | b :: t => memPutAll (memPut m a b) (a + 1) t

/-- The n bytes from an address upwards. -/
def memGetAll (m : List Host.Cell) (a : Nat) : Nat → List Byte
  | 0 => []
  | n + 1 => memGet m a :: memGetAll m (a + 1) n

/-- Bytes as a number, little-endian (R7). -/
def natOfBytes : List Byte → Nat
  | [] => 0
  | b :: t => b.toNat + 256 * natOfBytes t

/-- The low n bytes of a number, little-endian (R7). -/
def bytesOfNat : Nat → Nat → List Byte
  | 0, _ => []
  | n + 1, v => BitVec.ofNat 8 v :: bytesOfNat n (v / 256)

/-- n bytes of the state's memory as a number. -/
def loadN (s : State) (a n : Nat) : Nat := natOfBytes (memGetAll s.mem a n)

/-- The state with the low n bytes of v stored. -/
def storeN (a n v : Nat) (s : State) : State := { s with mem := memPutAll s.mem a (bytesOfNat n v) }

/-- The state with bytes stored. -/
def storeBytes (a : Nat) (bs : List Byte) (s : State) : State := { s with mem := memPutAll s.mem a bs }

/-! ### Parts of the state -/

/-- Core c. -/
def State.core (s : State) (c : CoreId) : Core := s.cores.get c

/-- The state with core c replaced. -/
def setCore (c : CoreId) (x : Core) (s : State) : State := { s with cores := s.cores.set c.val x c.isLt }

/-- The state with core c changed. -/
def modCore (c : CoreId) (f : Core → Core) (s : State) : State := setCore c (f (s.core c)) s

/-- DMA channel ch. -/
def State.chan (s : State) (ch : ChanId) : Chan := s.chans.get ch

/-- The state with a channel replaced. -/
def setChan (ch : ChanId) (x : Chan) (s : State) : State := { s with chans := s.chans.set ch.val x ch.isLt }

/-- The state with a channel changed. -/
def modChan (ch : ChanId) (f : Chan → Chan) (s : State) : State := setChan ch (f (s.chan ch)) s

/-- The state with a PCI Express port changed. -/
def modHost (p : Fin 2) (f : HPort → HPort) (s : State) : State :=
  { s with hosts := s.hosts.set p.val (f (s.hosts.get p)) p.isLt }

/-- f applied to the state for each element in order. -/
def forAll {α : Type} (f : α → State → State) : List α → State → State
  | [], s => s
  | a :: t, s => forAll f t (f a s)

/-- Every core, 0 first. -/
def allCores : List CoreId := [0, 1, 2, 3]

/-! ### Time and free values -/

/-- Gnomon cycles in a microsecond, a millisecond and an hour (R9). -/
def usCycles (n : Nat) : Nat := n * 1000
def msCycles (n : Nat) : Nat := n * 1000000
def hourCycles (n : Nat) : Nat := n * 3600000000000

/-- The state at a time that is not before its own (DESIGN CHOICE, log entry 2). -/
def advanceTo (t : Nat) (s : State) : State := { s with now := max s.now t }

/-- The next free value (DESIGN CHOICE, log entry 3). -/
def freeOf (s : State) : W64 := Config.freeValue s.freeCtr

/-- The state that has used a free value. -/
def useFree (s : State) : State := { s with freeCtr := s.freeCtr + 1 }

/-! ### Requesters (R92, R221) -/

/-- A requester's code: cores 0 to 3, Vesper 4, function f of port p 5 + 65p + f. -/
def reqCode : Req → Nat
  | .core c => c.val
  | .vesper => 4
  | .func p f => 5 + 65 * p.val + f.val

/-- The requester of a code. -/
def reqOfCode (n : Nat) : Req :=
  if n < 4 then .core (Fin.ofNat 4 n) else if n = 4 then .vesper
  else .func (Fin.ofNat 2 ((n - 5) / 65)) (Fin.ofNat 65 ((n - 5) % 65))

/-- The register bank of a requester's own registers. -/
def reqBank (r : Req) : Nat := 1 + reqCode r

/-- PG_FIRSTERR1 of R506: the requester and, for a port, the function. -/
def reqErr : Req → Nat
  | .core c => c.val
  | .vesper => 6
  | .func p f => 4 + p.val + 16 * f.val

/-! ### Registers -/

/-- The key of a register word in `regs`. -/
def rkey (bank page off : Nat) : Nat := (bank * 16384 + page) * 1024 + off / 4

/-- The bank that holds the values loaded from the configuration record for "cfg" fields (R15). -/
def cfgBank : Nat := 16777216

/-- A register word: what was last stored, else its Reset value (R15). (DEDUCED, log entry 39.) -/
def rawWord (s : State) (bank page off : Nat) : Nat :=
  match mfind s.regs (rkey bank page off) with
  | some w => w.toNat
  | none =>
    match mfind s.regs (rkey cfgBank page off) with
    | some w => w.toNat
    | none => resetOf (regAt page off).2

/-- The state with a register word stored. -/
def setWord (bank page off v : Nat) (s : State) : State :=
  { s with regs := mset s.regs (rkey bank page off) (BitVec.ofNat 32 v) }

/-- A pair as one 64-bit quantity (R12). -/
def rawPair (s : State) (bank page off : Nat) : Nat :=
  rawWord s bank page off + 2 ^ 32 * rawWord s bank page (off + 4)

/-- The state with a pair stored. -/
def setPair (bank page off v : Nat) (s : State) : State :=
  setWord bank page (off + 4) (v / 2 ^ 32) (setWord bank page off (v % 2 ^ 32) s)

/-- A pair's counter raised by n, saturating at 2^64 − 1. -/
def bumpPair (page off n : Nat) (s : State) : State :=
  setPair 0 page off (min (rawPair s 0 page off + n) (2 ^ 64 - 1)) s

/-- Bits [hi:lo] of a register word. -/
def fieldOf (s : State) (bank page off hi lo : Nat) : Nat := bitsOf (rawWord s bank page off) hi lo

/-- A number with bits [hi:lo] replaced. -/
def putBits (w hi lo v : Nat) : Nat := w - bitsOf w hi lo * 2 ^ lo + v % 2 ^ (hi - lo + 1) * 2 ^ lo

/-- The state with bits [hi:lo] of a register word replaced. -/
def setField (bank page off hi lo v : Nat) (s : State) : State :=
  setWord bank page off (putBits (rawWord s bank page off) hi lo v) s

/-- EN of a page (R494). -/
def pageEn (s : State) (page : Nat) : Bool := bitOf (rawWord s 0 page 0x008) 0

/-- The words of a page that hold no "cfg" value, removed: the page reads its Reset values (R15, R498). -/
def clearPage (page : Nat) (s : State) : State :=
  let keep := fun (p : Nat × W32) => decide (p.1 / 1024 % 16384 ≠ page ∨ p.1 / 1024 / 16384 = cfgBank)
  { s with regs := s.regs.filter keep }

/-! ### Synchronisation objects (R219) -/

/-- The value of an object. -/
def objGet (s : State) (o : Nat) : W64 := mget (0 : W64) s.objs o

/-! ### Vectors and events -/

/-- The word of an MSI-X table entry at byte k of the entry. -/
def msixWord (s : State) (p : Fin 2) (f : Fin 65) (vec k : Nat) : Nat :=
  rawWord s 0 (funcPage p f + 1 + vec * 16 / 4096) (vec * 16 % 4096 + k)

/-- A function's configuration (R425). -/
def fnCfg (s : State) (p : Fin 2) (f : Fin 65) : FnCfg := mget FnCfg.reset (s.hosts.get p).cfgs f.val

/-- A vector is masked: by its vector control, by the function's mask, or while MSI-X is not enabled (PRESUMED, log entry 10). -/
def msixMasked (s : State) (p : Fin 2) (f : Fin 65) (vec : Nat) : Bool :=
  let c := fnCfg s p f
  !c.msixOn || c.msixMask || bitOf (msixWord s p f vec 12) 0

/-- A vector of a function is signalled (R436): pending when masked, else waiting to be written. -/
def signalVector (p : Fin 2) (f : Fin 65) (vec : Nat) (s : State) : State :=
  let k := f.val * 2048 + vec
  if msixMasked s p f vec then modHost p (fun h => { h with msixPending := kins h.msixPending k }) s
  else modHost p (fun h => { h with msixSignalled := kins h.msixSignalled k }) s

/-- A function has completed negotiation and accepted feature bit k (R437). -/
def featureOn (s : State) (p : Fin 2) (f : Fin 65) (k : Nat) : Bool :=
  bitOf (rawWord s 0 (funcPage p f) 0x140) 0 && bitOf (rawWord s 0 (funcPage p f) (0x120 + 4 * (k / 32))) (k % 32)

/-- The event vector of a port's physical function is signalled when its EN is set (R436, R437). -/
def eventVector (p : Fin 2) (s : State) : State :=
  let w := rawWord s 0 (funcPage p 0) 0x184
  if bitOf w 31 && featureOn s p 0 2 then signalVector p 0 (bitsOf w 10 0) s else s

/-- Reports of CONTAIN, WITHDRAW and MEMERR with cause 1 are never dropped (R421). -/
def keptReport (page flag : Nat) (cap : List Nat) : Bool :=
  page = 0x003 && (flag = 3 || flag = 4 || (flag = 6 && cap.head?.map (· % 16) = some 1))

/-- The first report to displace: the oldest coalesced one, else the oldest (DESIGN CHOICE, log entry 14). -/
def displaceReport (l : List Report) : List Report :=
  if l.any (fun r => decide (1 < r.count)) then l.eraseP (fun r => decide (1 < r.count)) else l.tail

/-- A queued report that an event of a flag joins (R421). -/
def joinsReport (s : State) (page flag : Nat) (r : Report) : Bool :=
  r.page == page && r.flag == flag && decide (s.now ≤ r.firstAt + msCycles 100)

/-- An event's report is queued for the management network (R421): coalesced with one of the same flag within 100 ms,
dropped at 4,096. -/
def forwardReport (page flag : Nat) (cap : List Nat) (captured : Bool) (s : State) : State :=
  let same := joinsReport s page flag
  let new : Report :=
    { page := page, flag := flag, count := 1, capture := if captured then some cap else none, firstAt := s.now,
      step := s.bnd.step }
  if s.rel.reports.any same then
    let bump := fun (r : Report) => if same r then { r with count := r.count + 1 } else r
    { s with rel := { s.rel with reports := s.rel.reports.map bump } }
  else if s.rel.reports.length < 4096 then { s with rel := { s.rel with reports := s.rel.reports ++ [new] } }
  else if keptReport page flag cap then
    { s with rel := { s.rel with reports := displaceReport s.rel.reports ++ [new], dropped := s.rel.dropped + 1 } }
  else { s with rel := { s.rel with dropped := s.rel.dropped + 1 } }

/-- The first-error capture takes an event's details when it is empty (R495). -/
def captureEvent (page flag : Nat) (cap : List Nat) (s : State) : State :=
  if bitOf (rawWord s 0 page 0x00C) 0 then s
  else
    setWord 0 page 0x040 (cap.getD 0 0) <| setWord 0 page 0x044 (cap.getD 1 0) <|
    setWord 0 page 0x048 (cap.getD 2 0) <| setWord 0 page 0x04C (cap.getD 3 0) <|
    setWord 0 page 0x00C (putBits (rawWord s 0 page 0x00C) 5 0 (1 + 2 * flag)) s

/-- An event is logged (R3, R494 to R496, R500, R502): its flag is set, its saturating counter rises, an empty capture
takes its details, a report goes to Vesper, and an unmasked flag signals the event vectors (R436). -/
def logEvent (page flag : Nat) (cap : List Nat) (s : State) : State :=
  let captured := !bitOf (rawWord s 0 page 0x00C) 0
  let w := rawWord s 0 page 0x010
  let s := setWord 0 page 0x010 (putBits w flag flag 1) s
  let s := setWord 0 page (0x020 + 4 * flag) (min (rawWord s 0 page (0x020 + 4 * flag) + 1) (2 ^ 32 - 1)) s
  let s := captureEvent page flag cap s
  let s := forwardReport page flag cap captured s
  if bitOf (rawWord s 0 page 0x014) flag then s else eventVector 1 (eventVector 0 s)

/-- n further events of a flag just logged: its counter and the count of its report rise, or n reports are dropped. -/
def logMore (n page flag : Nat) (s : State) : State :=
  let s := setWord 0 page (0x020 + 4 * flag) (min (rawWord s 0 page (0x020 + 4 * flag) + n) (2 ^ 32 - 1)) s
  let same := joinsReport s page flag
  if s.rel.reports.any same then
    let bump := fun (r : Report) => if same r then { r with count := r.count + n } else r
    { s with rel := { s.rel with reports := s.rel.reports.map bump } }
  else { s with rel := { s.rel with dropped := s.rel.dropped + n } }

/-- An event is logged n times, the capture holding the first (R496). -/
def logTimes (n page flag : Nat) (cap : List Nat) (s : State) : State :=
  if n = 0 then s else logMore (n - 1) page flag (logEvent page flag cap s)

/-- EVANY of a page (R494). -/
def evAny (s : State) (page : Nat) : Bool := rawWord s 0 page 0x010 != 0

end Sys2Proof.Machine
end

