-- ==== Sys2Proof/Machine/Readiness.lean ====
section
/-! DEFINITION. The buckets of the reduction page and what the module holds of them (R304, R316, R326), internal readiness
(R385), and a synchronisation object's new value (R219), at which readiness is judged. -/
namespace Sys2Proof.Machine

/-- The register bank of entry n behind a selector. -/
def entryBank (n : Nat) : Nat := 65536 + n

/-- The entries behind a selector that hold a word at a page and offset: their numbers, rising. -/
def entriesWith (s : State) (page off : Nat) : List Nat :=
  (s.regs.filterMap fun p =>
    if p.1 % (16384 * 1024) = page * 1024 + off / 4 ∧ 65536 ≤ p.1 / (16384 * 1024) ∧ p.1 / (16384 * 1024) < 65536 + 16384
    then some (p.1 / (16384 * 1024) - 65536) else none).foldl kins []

/-- The reduction page, and a bucket's registers (R326). -/
def redPage : Nat := 0x011
def bkCfg (s : State) (b : Nat) : Nat := rawWord s (entryBank b) redPage 0x124
def bkChan (s : State) (b : Nat) : Nat := bitsOf (bkCfg s b) 9 4
def bkLen (s : State) (b : Nat) : Nat := fieldOf s (entryBank b) redPage 0x130 24 0

/-! ### Buckets (R304, R326) -/

/-- The state with the reduction block changed. -/
def modRed (f : Red → Red) (s : State) : State := { s with red := f s.red }

/-- A bucket's registers. -/
def bkWord (s : State) (b off : Nat) : Nat := rawWord s (entryBank b) redPage off
def bkEn (s : State) (b : Nat) : Bool := bitOf (bkCfg s b) 0
def bkMember (s : State) (b : Nat) : Bool := bitOf (bkCfg s b) 0 && bitOf (bkCfg s b) 1
def bkIsHome (s : State) (b : Nat) : Bool := bitOf (bkCfg s b) 0 && bitOf (bkCfg s b) 2
def bkParts (s : State) (b : Nat) : Nat := bitsOf (bkCfg s b) 13 12 + 1
def bkSlot (s : State) (b : Nat) : Nat := bitsOf (bkCfg s b) 29 16
def bkHome (s : State) (b : Nat) : Nat := bitsOf (bkWord s b 0x128) 13 0
def bkMembers (s : State) (b : Nat) : Nat := bitsOf (bkWord s b 0x12C) 13 0 + 1
def bkLayer (s : State) (b : Nat) : Nat := bitsOf (bkWord s b 0x134) 13 0
def bkPair (s : State) (b off : Nat) : Nat := rawPair s (entryBank b) redPage off

/-- The buckets whose configuration was written, rising. -/
def buckets (s : State) : List Nat := entriesWith s redPage 0x124

/-- The key of a bucket's state for a step. -/
def parKey (b step : Nat) : Nat := b * 2 + step % 2

/-- A bucket's member state for a step, if the module holds it. -/
def memberOf (s : State) (b step : Nat) : Option Member := (mfind s.red.members (parKey b step)).filter (fun m => m.step == step)

/-- A bucket's record for a step, if the home holds it. -/
def recordOf (s : State) (b step : Nat) : Option Record := (mfind s.red.records (parKey b step)).filter (fun r => r.step == step)

/-! ### Readiness (R385) -/

/-- The boundary page. -/
def bndPage : Nat := 0x007

/-- The state with the boundary block changed. -/
def modBnd (f : Bnd → Bnd) (s : State) : State := { s with bnd := f s.bnd }

/-- Condition 1: the readiness object has reached its threshold. -/
def readyObj (s : State) : Bool :=
  decide (rawPair s 0 bndPage 0x110 ≤ (objGet s (fieldOf s 0 bndPage 0x10C 16 0)).toNat)

/-- Condition 2: the module's part in every bucket of which it is a member has ended. -/
def membersEnded (s : State) : Bool :=
  (buckets s).all fun b => !bkMember s b || (match memberOf s b s.bnd.step with
    | some m => m.ended
    | none => false)

/-- Condition 3: every record of the step at this home is ready or excluded whole. -/
def recordsReady (s : State) : Bool :=
  (buckets s).all fun b => !bkIsHome s b || (match recordOf s b s.bnd.step with
    | some r => !r.past && (r.state == 3 || r.state == 5)
    | none => false)

/-- The module is ready to end its step, Gnomon being powered; conditions 1 and 2 are kept once met. -/
def moduleReady (s : State) : Bool :=
  decide (2 ≤ s.power.modState) && pageEn s bndPage && (s.bnd.kept || (readyObj s && membersEnded s)) && recordsReady s

/-- The boundary block once readiness is judged: conditions 1 and 2 kept, the time of readiness noted. A boundary in
progress is no moment of the step that it begins: its threshold stands from action 8 (R393). -/
def judged (s : State) : Bnd :=
  if pageEn s bndPage && !s.bnd.closing then
    let kept := s.bnd.kept || (readyObj s && membersEnded s)
    { s.bnd with
      kept := kept
      readyAt := if decide (2 ≤ s.power.modState) && kept && recordsReady s then s.bnd.readyAt.or (some s.now) else none }
  else s.bnd

/-- Readiness judged afresh (R385): after each change of an object, of a part or a record, of the pages that it rests on,
and at each boundary command. Between such changes it stays as it was. -/
def judgeReadiness (s : State) : State := { s with bnd := judged s }

/-! ### Synchronisation objects (R219) -/

/-- The state with an object set. -/
def objSet (o : Nat) (v : W64) (s : State) : State := judgeReadiness { s with objs := mput (0 : W64) s.objs o v }

/-- The state with v added to an object, modulo 2^64. -/
def objAdd (o : Nat) (v : W64) (s : State) : State := objSet o (objGet s o + v) s

end Sys2Proof.Machine
end

