-- ==== Sys2Proof/Machine/Operands.lean ====
section
/-! DEFINITION. Operand forms: instruction words (R162), command fields (R178 to R200), tile registers and the regions they
describe (R182 to R186), generation tags (R211, R212), poison marks (R411). -/
namespace Sys2Proof.Machine

/-! ### Instruction words (R162) -/

/-- Format R. -/
def wordR (op rd rs1 rs2 fn : Nat) : Nat := op + rd * 2 ^ 8 + rs1 * 2 ^ 14 + rs2 * 2 ^ 20 + fn * 2 ^ 26

/-- Formats I and B: a 12-bit field above two register fields. -/
def wordI (op rd rs1 imm : Nat) : Nat := op + rd * 2 ^ 8 + rs1 * 2 ^ 14 + imm * 2 ^ 20

/-- Formats J and U: an 18-bit field above one register field. -/
def wordJ (op rd imm : Nat) : Nat := op + rd * 2 ^ 8 + imm * 2 ^ 14

/-- Format Q. -/
def wordQ (op rd rs1 rs2 : Nat) (q : Queue) (f : Bool) : Nat :=
  op + rd * 2 ^ 8 + rs1 * 2 ^ 14 + rs2 * 2 ^ 20 + q.code * 2 ^ 26 + (if f then 2 ^ 28 else 0)

/-- An opcode or fn code that R163 and R220 do not list. -/
def reservedWord (w : Nat) : Bool :=
  let op := w % 256
  let fn := bitsOf w 31 26
  if op = 0x10 then decide (20 < fn)
  else if op = 0x58 then decide (2 < fn)
  else !(op = 0x01 || (0x11 ≤ op && op ≤ 0x18) || op = 0x20 || op = 0x21 || (0x30 ≤ op && op ≤ 0x36) ||
    (0x38 ≤ op && op ≤ 0x3F) || (0x40 ≤ op && op ≤ 0x45) || op = 0x48 || op = 0x49 || (0x50 ≤ op && op ≤ 0x52) ||
    op = 0x60 || op = 0x61 || op = 0x70)

/-! ### Command words (R178) -/

/-- Bits [hi:lo] of a command. -/
def cmdBits (w : BitVec 128) (hi lo : Nat) : Nat := bitsOf w.toNat hi lo

/-- OP, and the object signalled when SIG is set. -/
def cmdOp (w : BitVec 128) : Nat := cmdBits w 7 0
def cmdSig (w : BitVec 128) : Option Nat := if cmdBits w 8 8 = 1 then some (cmdBits w 25 9) else none

/-! ### Tile registers (R182, R183, R186) -/

/-- A tile register's fields. -/
structure TReg where
  base : Nat
  space : Nat
  fmt : Nat
  ax : Bool
  gt : Bool
  ebase : Nat
  u : Nat
  v : Nat
  sa : Nat
  sb : Nat
  ea : Nat
  eb : Nat
  deriving DecidableEq, Repr

/-- The page and offset of a tile register's first word (R182). -/
def trPage (c : CoreId) (t : Nat) : Nat := coreP c (8 + t / 64)
def trOff (t : Nat) : Nat := 0x100 + 0x20 * (t % 64)

/-- The eight committed words of a tile register. -/
def trWords (s : State) (c : CoreId) (t : Nat) : List Nat :=
  (List.range 8).map (fun k => rawWord s 0 (trPage c t) (trOff t + 4 * k))

/-- Eight words read as a tile register (R182). -/
def tregOf (ws : List Nat) : TReg :=
  let w := fun k => ws.getD k 0
  { base := bitsOf (w 0) 20 0, space := bitsOf (w 0) 22 21, fmt := bitsOf (w 0) 26 23, ax := bitOf (w 0) 27,
    gt := bitOf (w 0) 28, ebase := bitsOf (w 1) 26 0, u := bitsOf (w 2) 19 0, v := bitsOf (w 3) 19 0, sa := w 4,
    sb := w 5, ea := w 6, eb := w 7 }

/-- The committed copy of a tile register. -/
def treg (s : State) (c : CoreId) (t : Nat) : TReg := tregOf (trWords s c t)

/-- The region has blocks. -/
def TReg.blocks (r : TReg) : Bool := blockBits r.fmt != 0

/-- Lines, and blocks along a line, of a block region (R183). -/
def TReg.lines (r : TReg) : Nat := if r.ax then r.v else r.u
def TReg.perLine (r : TReg) : Nat := ((if r.ax then r.u else r.v) + 31) / 32

/-- Bytes of a block's mantissas (R33), and of an element. -/
def TReg.blockBytes (r : TReg) : Nat := 4 * blockBits r.fmt
def TReg.width (r : TReg) : Nat := fmtBits r.fmt / 8

/-- Size of a space, and its local base for a core (R231, R182). -/
def spaceSize (sp : Nat) : Nat := if sp = 0 then 0x2000000 else 0x8000000
def tileBase (c : CoreId) : Nat := 0xE0000000000 + c.val * 0x2000000
def spaceBase (c : CoreId) (sp : Nat) : Nat := if sp = 0 then tileBase c else 0xE0010000000

/-- Offset of a block's mantissas and of its exponent byte in the space (R183). -/
def TReg.mantOff (r : TReg) (a b : Nat) : Nat := 64 * r.base + a * r.sa + b * r.sb
def TReg.expOff (r : TReg) (a b : Nat) : Nat := r.ebase + a * r.ea + b * r.eb

/-- Offset of an element of a region without blocks (R183). -/
def TReg.elemOff (r : TReg) (u v : Nat) : Nat := 64 * r.base + u * r.sa + v * r.width

/-- Line, block and place of an element (R183). -/
def TReg.place (r : TReg) (u v : Nat) : Nat × Nat × Nat := if r.ax then (v, u / 32, u % 32) else (u, v / 32, v % 32)

/-- The line that carries an element's generation tag (R211). -/
def TReg.lineOf (r : TReg) (u v : Nat) : Nat := if r.blocks && r.ax then v else u

/-- The register fits (R186). -/
def TReg.fits (r : TReg) : Bool :=
  let size := spaceSize r.space
  decide (r.space < 2 ∧ fmtBits r.fmt ≠ 0 ∧ r.u ≠ 0 ∧ r.v ≠ 0) &&
  (if r.blocks then
    decide (r.sa % 16 = 0 ∧ r.sb % 16 = 0 ∧ r.mantOff (r.lines - 1) (r.perLine - 1) + r.blockBytes ≤ size ∧
      r.expOff (r.lines - 1) (r.perLine - 1) < size)
   else decide (r.sa % r.width = 0 ∧ r.elemOff (r.u - 1) (r.v - 1) + r.width ≤ size))

/-- The register covers n bytes at its start (R186). -/
def TReg.covers (r : TReg) (n : Nat) : Bool := r.fits && decide (8 * n ≤ r.v * fmtBits r.fmt)

/-- The mantissa of place i of a block at a local address (R33), as a signed integer. -/
def mantAt (s : State) (n a i : Nat) : Int :=
  if n = 4 then signedOf 4 (bitsOf (memGet s.mem (a + i / 2)).toNat (4 * (i % 2) + 3) (4 * (i % 2)))
  else if n = 8 then signedOf 8 (memGet s.mem (a + i)).toNat
  else signedOf 16 (loadN s (a + 2 * i) 2)

/-- An element of a block region, by its mantissa and exponent byte; a position beyond U or V is zero (R34, R189). -/
def blockElem (s : State) (c : CoreId) (r : TReg) (u v : Nat) : Elem :=
  if r.u ≤ u ∨ r.v ≤ v then ⟨0, 0⟩
  else
    let p := r.place u v
    let base := spaceBase c r.space
    ⟨mantAt s (blockBits r.fmt) (base + r.mantOff p.1 p.2.1) p.2.2, (memGet s.mem (base + r.expOff p.1 p.2.1)).toNat⟩

/-- The code of an element of a region without blocks. -/
def plainElem (s : State) (c : CoreId) (r : TReg) (u v : Nat) : Nat :=
  loadN s (spaceBase c r.space + r.elemOff u v) r.width

/-- The value of any element of a region. -/
def regionVal (s : State) (c : CoreId) (r : TReg) (u v : Nat) : FVal :=
  if r.blocks then let x := blockElem s c r u v; elemVal (blockBits r.fmt) x.m x.e else plainVal r.fmt (plainElem s c r u v)

/-- The local bytes that hold an element: address and length; a block element also needs its exponent byte. -/
def elemBytes (c : CoreId) (r : TReg) (u v : Nat) : List (Nat × Nat) :=
  let base := spaceBase c r.space
  if r.blocks then
    let p := r.place u v
    [(base + r.mantOff p.1 p.2.1 + p.2.2 * blockBits r.fmt / 8, if blockBits r.fmt = 16 then 2 else 1),
     (base + r.expOff p.1 p.2.1, 1)]
  else [(base + r.elemOff u v, r.width)]

/-! ### Poison (R411) -/

/-- A byte of a range lies in a poisoned line. -/
def poisoned (s : State) (a n : Nat) : Bool := s.poison.any (fun l => decide (a / 64 ≤ l ∧ l ≤ (a + n - 1) / 64 ∧ 0 < n))

/-- The lines of a range, poisoned. -/
def poisonRange (a n : Nat) (s : State) : State :=
  if n = 0 then s
  else { s with poison := (List.range ((a + n - 1) / 64 - a / 64 + 1)).foldl (fun p k => kins p (a / 64 + k)) s.poison }

/-- The marks of the lines that a clean write of a range covers whole, cleared; a partial write leaves a mark (R411). -/
def cleanRange (a n : Nat) (s : State) : State :=
  { s with poison := s.poison.filter (fun l => decide (64 * l < a ∨ a + n < 64 * l + 64)) }

/-- Bytes written at a local address, poisoned or clean. -/
def writeMarked (bad : Bool) (a : Nat) (bs : List Byte) (s : State) : State :=
  let s := storeBytes a bs s
  if bad then poisonRange a bs.length s else cleanRange a bs.length s

/-! ### Generation tags (R211) -/

/-- The tag of a line of a tile register, and GEN_t; both 4 bits, zero when not listed. -/
def tagOf (k : Core) (t line : Nat) : Nat := mget 0 k.sched.tags (t * 1024 + line % 1024)
def genOf (k : Core) (t : Nat) : Nat := mget 0 k.sched.gens t

/-- A line given a tag. -/
def setTag (t line g : Nat) (k : Core) : Core :=
  { k with sched := { k.sched with tags := mput 0 k.sched.tags (t * 1024 + line % 1024) g } }

/-- Lines given a tag. -/
def setTags (t g : Nat) : List Nat → Core → Core
  | [], k => k
  | l :: ls, k => setTags t g ls (setTag t l g k)

/-- The marks of lines that several pieces of one write cover whole with clean bytes, cleared (R411). -/
def clearCovered (ps : List (Nat × List (Byte × Bool))) (s : State) : State :=
  let has := fun (a : Nat) => ps.any (fun p => decide (p.1 ≤ a ∧ a < p.1 + p.2.length))
  let dirty := fun (l : Nat) => ps.any (fun p => p.2.zipIdx.any (fun b => b.1.2 && (p.1 + b.2) / 64 == l))
  let whole := fun (l : Nat) => (List.range 64).all (fun i => has (64 * l + i)) && !dirty l
  { s with poison := s.poison.filter (fun l => !whole l) }

/-- The marks of lines that the clean pieces of one command, each an address and a length, cover whole, cleared (R411). -/
def clearWhole (ps : List (Nat × Nat)) (s : State) : State :=
  clearCovered (ps.map (fun p => (p.1, List.replicate p.2 ((0 : Byte), false)))) s

end Sys2Proof.Machine
end

