-- ==== Sys2Proof/Machine/TaskOps.lean ====
section
/-! DEFINITION. What several engines do to a core's task: held operations and signals (R181, R218), digests (R404),
schedule faults (R214), cancels (R225), containment (R414), consumption of poison (R413). -/
namespace Sys2Proof.Machine

/-- The module's own identifier (R328). -/
def moduleId (s : State) : Nat := fieldOf s 0 0x012 0x100 13 0

/-- The page and offset of a task slot's first word (R204). -/
def tsPage (c : CoreId) (n : Nat) : Nat := coreP c (32 + n / 32)
def tsOff (n : Nat) : Nat := 0x100 + 0x40 * (n % 32)

/-- A slot's state and sequence number; a slot not listed is IDLE. -/
def slotOf (k : Core) (n : Nat) : Slot := mget ⟨0, 0⟩ k.sched.slots n

/-- The core with a slot's state changed; IDLE slots are not listed. -/
def setSlot (n st : Nat) (k : Core) : Core :=
  { k with sched := { k.sched with
      slots := if st = 0 then mdel k.sched.slots n else mset k.sched.slots n ⟨st, (slotOf k n).seq⟩ } }

/-- The context a slot names (R204). -/
def slotCtx (s : State) (c : CoreId) (n : Nat) : Nat := fieldOf s 0 (tsPage c n) (tsOff n + 4) 13 0

/-- The core with its task changed, when it has one. -/
def modTask (f : Task → Task) (k : Core) : Core := { k with sched := { k.sched with task := k.sched.task.map f } }

/-- The core's task is in guarded replay. -/
def Core.guarded (k : Core) : Bool := match k.sched.task with
  | some t => t.guarded
  | none => false

/-- The core has a task that is not being stopped. -/
def Core.live (k : Core) : Bool := match k.sched.task with
  | some t => decide (t.halt = .no)
  | none => false

/-! ### Digests (R404) -/

/-- The bytes as 64-bit words from a line's start, absent bytes as zero. -/
def lineWords (a : Nat) (bs : List Byte) (line : Nat) : List W64 :=
  (List.range 8).map fun k =>
    BitVec.ofNat 64 (natOfBytes ((List.range 8).map fun j =>
      let p := line * 64 + 8 * k + j
      if a ≤ p then bs.getD (p - a) 0 else 0))

/-- The byte enables of a line under a write of n bytes at a. -/
def lineMask (a n line : Nat) : W64 :=
  BitVec.ofNat 64 ((List.range 64).foldl (fun m j => if a ≤ line * 64 + j ∧ line * 64 + j < a + n then m + 2 ^ j else m) 0)

/-- The hash of one line of a write. -/
def lineHash (a : Nat) (bs : List Byte) (line : Nat) : W64 :=
  (lineWords a bs line).foldl (fun h w => fold (h ^^^ w)) (fold (BitVec.ofNat 64 (64 * line) ^^^ lineMask a bs.length line))

/-- The sum of the hashes of a write's lines. -/
def writeHash (a : Nat) (bs : List Byte) : Nat :=
  if bs.isEmpty then 0
  else
    let n := (a + bs.length - 1) / 64 - a / 64 + 1
    (List.range n).foldl (fun d k => (d + (lineHash a bs (a / 64 + k)).toNat) % 2 ^ 64) 0

/-- A digest before any item. -/
def Digest.empty : Digest := { localWrites := 0, remote := [], parts := [], held := 0, extents := [] }

/-- A local write counted into the digest of a core's run. -/
def noteWrite (c : CoreId) (a : Nat) (bs : List Byte) (s : State) : State :=
  let h := writeHash (moduleId s * 2 ^ 44 + a) bs
  let f := fun (t : Task) =>
    { t with digest := { t.digest with localWrites := (t.digest.localWrites + h) % 2 ^ 64 } }
  modCore c (modTask f) s

/-- A write of a task's engine: bytes, marks and digest (R403, R411). -/
def taskWrite (c : CoreId) (a : Nat) (bs : List Byte) (s : State) : State := noteWrite c a bs (writeMarked false a bs s)

/-! ### Held operations and signals -/

/-- The hash of a held operation (R404). -/
def heldHash : HeldOp → Nat
  | .add o v => (fold (BitVec.ofNat 64 o ^^^ fold (v ^^^ 1#64))).toNat
  | .set o v => (fold (BitVec.ofNat 64 o ^^^ fold (v ^^^ 2#64))).toNat
  | .remoteAdd m o v _ => (fold (BitVec.ofNat 64 (m * 2 ^ 20 + o) ^^^ fold (v ^^^ 3#64))).toNat
  | .remoteSet m o v _ => (fold (BitVec.ofNat 64 (m * 2 ^ 20 + o) ^^^ fold (v ^^^ 4#64))).toNat

/-- A held operation of the run in hand: recorded in order, or in a check run only digested (R218, R403). -/
def recordHeldTask (op : HeldOp) (t : Task) : Task :=
  let t := { t with digest := { t.digest with held := (t.digest.held + heldHash op) % 2 ^ 64 } }
  if t.run = .check then t else { t with held := t.held ++ [op] }

/-- A held operation of a core's task. -/
def recordHeld (c : CoreId) (op : HeldOp) (s : State) : State := modCore c (modTask (recordHeldTask op)) s

/-- A command in execution completes: it leaves the flights, and with SIG set its signal is recorded (R181). -/
def completeFlight (c : CoreId) (fl : Flight) (count : Nat) (s : State) : State :=
  let s := modCore c (fun k => { k with queues := { k.queues with flights := k.queues.flights.erase fl } }) s
  match fl.sig with
  | none => s
  | some o => recordHeld c (.add o (BitVec.ofNat 64 count)) s

/-! ### Stopping a task -/

/-- The keys of a cell and of a check line of a group. -/
def cellKey (g i j : Nat) : Nat := g * 65536 + i * 256 + j
def lineKey (g line : Nat) : Nat := g * 513 + line

/-- A core without the cells and check lines of a group: they read zero. -/
def clearCells (g : Nat) (k : Core) : Core :=
  { k with
    cells := dropRange (cellKey g 0 0) (cellKey (g + 1) 0 0) k.cells
    checks := dropRange (lineKey g 0) (lineKey (g + 1) 0) k.checks }

/-- A group that is not FREE goes to FREE with no close record, and nothing reaches its cells (R66). -/
def discardGroup (g : Fin 4) (k : Core) : Core :=
  if (k.groups.get g).state = 0 then k else clearCells g.val { k with groups := k.groups.set g.val Group.reset g.isLt }

/-- Every group of a core that is not FREE is discarded (R214 step 4). -/
def discardGroups (k : Core) : Core := discardGroup 3 (discardGroup 2 (discardGroup 1 (discardGroup 0 k)))

/-- The transfer was pushed by a task of core c. -/
def Xfer.ofCore (x : Xfer) (c : CoreId) : Bool := match x.owner with
  | some (n, _) => n == c.val
  | none => false

/-- The destination lies in another module: its ADDR endpoint names one (R358). -/
def remoteDst (s : State) (x : Xfer) : Bool :=
  bitsOf (x.desc.getD 0 0) 3 2 == 0 && bitsOf (x.desc.getD 7 0) 25 12 != moduleId s

/-- A dropped transfer with reads in flight: they complete into nothing later (R226). -/
def lateOf (x : Xfer) : List Nat := if x.written < x.issued ∨ 0 < x.part then [x.serial] else []

/-- A channel no longer suspended at a row of the transfer, and with no place for one. -/
def unsuspend (x : Xfer) (k : Chan) : Chan :=
  { k with
    suspended := if (k.suspended.map (·.1)) = some x.serial then none else k.suspended
    resumed := if (k.resumed.map (·.1)) = some x.serial then none else k.resumed }

/-- A channel without its active transfer, or without its shadow descriptor. -/
def dropActive (x : Xfer) (k : Chan) : Chan := { unsuspend x k with active := none, late := k.late ++ lateOf x }
def dropShadow (x : Xfer) (k : Chan) : Chan := { unsuspend x k with shadow := none, late := k.late ++ lateOf x }

/-- A transfer that has sent part of a row ends with that row; no read of it is begun any more. -/
def stopAtRow (code : Nat) (x : Xfer) : Xfer := { x with stop := code }

/-- A channel without the transfers of core c; one that has sent part of a row to another module ends at its row boundary
(R214 step 3, R225, R226). -/
def dropCoreXfers (c : CoreId) (k : Chan) : Chan :=
  let k := match k.active with
    | some x =>
      if !x.ofCore c then k else if 0 < x.wpart then unsuspend x { k with active := some (stopAtRow 2 x) } else dropActive x k
    | none => k
  match k.shadow with
  | some x =>
    if !x.ofCore c then k else if 0 < x.wpart then unsuspend x { k with shadow := some (stopAtRow 2 x) } else dropShadow x k
  | none => k

/-- An array with no load, stream, word or marker in it. -/
def clearArray (a : Array) : Array :=
  { a with loads := [], streams := [], words := [], pendingOpens := [], markerWords := [], partials := [] }

/-- Steps 1 to 5 of R214 on the core itself: the control core stops, the queues are flushed, what is in execution stops,
groups are discarded, held operations and parts dropped. -/
def haltCore (k : Core) : Core :=
  let k := discardGroups k
  { k with
    ctl := { k.ctl with running := false, waitcy := none, regWait := none, sopWait := none }
    queues := { k.queues with matrix := [], vector := [], dma := [], reduce := [], flights := [] }
    array := clearArray k.array
    vec := { k.vec with running := [] }
    sched := { k.sched with task := k.sched.task.map (fun t => { t with held := [] }) } }

/-- The send-buffer space of one part: 2 × LEN bytes and a 32-byte header (R308). -/
def partSpace (s : State) (b : Nat) : Nat := 2 * bkLen s b + 32

/-- Send-buffer space of a channel given back. -/
def freeSpace (ch n : Nat) (s : State) : State :=
  { s with red := { s.red with used := mput 0 s.red.used ch (mget 0 s.red.used ch - n) } }

/-- The unreleased parts of core c's task are dropped with their space (R309). -/
def dropParts (c : CoreId) (s : State) : State :=
  let parts := match (s.core c).sched.task with
    | some t => t.parts
    | none => []
  let s := forAll (fun (p : Part) s => freeSpace (bkChan s p.bucket) (partSpace s p.bucket) s) parts s
  modCore c (modTask (fun t => { t with parts := [] })) s

/-- Steps 1 to 5 of R214 for core c. -/
def stopCore (c : CoreId) (s : State) : State :=
  let s := modCore c haltCore (dropParts c s)
  { s with chans := s.chans.map (dropCoreXfers c) }

/-- A schedule fault in normal mode (R214): logged with its cause, queue, entry index and tile register; the core-cycle
offset is a free value, since the model keeps no engine time (DESIGN CHOICE, log entry 16). -/
def scheduleFault (c : CoreId) (cause queue idx tr : Nat) (s : State) : State :=
  match (s.core c).sched.task with
  | none => s
  | some t =>
    let s := logEvent (coreP c 1) 0 [t.slot + cause * 2 ^ 12 + queue * 2 ^ 16 + idx * 2 ^ 24, (freeOf s).toNat % 2 ^ 32, tr] s
    modCore c (modTask (fun t => { t with halt := .fault })) (stopCore c (useFree s))

/-- The class bits charged to a step. -/
def classBits (s : State) (step : Nat) : Nat := mget 0 s.bnd.charged step

/-- The record of a step that carries a class bit (R398): DETEVENT, and BND_DETFIRST falls to the step when it is lower. -/
def detEvent (step : Nat) (s : State) : State :=
  let s := if step < rawPair s 0 0x007 0x140 then setPair 0 0x007 0x140 step s else s
  logEvent 0x007 3 [classBits s step, step % 2 ^ 32] s

/-- The record of a step has been written (R398). -/
def recordWritten (s : State) (step : Nat) : Bool := decide (step < s.bnd.step) && !(s.bnd.closing && step + 1 == s.bnd.step)

/-- A class bit charged to a step (R397); one charged after the step's record was written is added to it (R398). -/
def chargeClass (bit step : Nat) (s : State) : State :=
  let s := { s with bnd := { s.bnd with charged := mmod 0 s.bnd.charged step (fun w => putBits w bit bit 1) } }
  if recordWritten s step then
    let s := if rawPair s 0 0x007 0x130 = step then setWord 0 0x007 0x138 (classBits s step) s else s
    detEvent step s
  else s

/-- The checks of core c's task end (R408): with the original's writes standing, or otherwise, when their epochs fail and a
contribution still incomplete remembers it. -/
def endEpochs (c : CoreId) (pass : Bool) (s : State) : State :=
  let mine := s.red.attached.filter (fun p => p.2 == c.val)
  let mark := fun (m : Member) =>
    if m.checks.contains c.val then { m with checks := kdel m.checks c.val, bad := m.bad || !pass } else m
  { s with red := { s.red with
      attached := s.red.attached.filter (fun p => p.2 != c.val)
      failed := if pass then s.red.failed else mine.foldl (fun l p => kins l p.1) s.red.failed
      members := s.red.members.map (fun x => (x.1, mark x.2)) } }

/-- CHECK (R407, R424). -/
def logCheck (cause : Nat) (c : CoreId) (t : Task) (s : State) : State :=
  logEvent 0x003 0 [cause + c.val * 2 ^ 4 + t.slot * 2 ^ 6, t.ctx] s

/-- Every engine of a stopped core is idle: no transfer of its task still completes a row (R225). -/
def enginesIdle (s : State) (c : CoreId) : Bool :=
  let rest := fun (x : Option Xfer) => x.all (fun y => !(y.ofCore c && y.stop == 2))
  s.chans.all (fun k => rest k.active && rest k.shadow)

/-- A sampled task's check is abandoned (R422): CHECK with cause 3, and its epochs fail. -/
def abandonCheck (c : CoreId) (t : Task) (s : State) : State :=
  if t.sampled then logCheck 3 c t (endEpochs c false s) else s

/-- A cancel of the task that runs on core c (R225): the slot goes to CANCELLING and the task stops. -/
def cancelRunning (c : CoreId) (s : State) : State :=
  match (s.core c).sched.task with
  | none => s
  | some t =>
    let s := modCore c (setSlot t.slot 4) s
    let s := bumpPair (coreP c 1) 0x138 1 s
    let s := abandonCheck c t s
    modCore c (modTask (fun t => { t with halt := .cancel })) (stopCore c s)

/-- A cancel of one slot whose state permits it (R225): a waiting slot returns to IDLE, a running one is cancelled. -/
def cancelSlot (c : CoreId) (n : Nat) (s : State) : State :=
  let st := (slotOf (s.core c) n).state
  if st = 1 then modCore c (setSlot n 0) s
  else if st = 2 ∨ st = 3 then cancelRunning c s
  else s

/-- An aborted transfer ends: the rows completed and not yet added are added, and the outcome reads ABORTED (R276). -/
def finishAbort (ch : ChanId) (k : Nat) (x : Xfer) (s : State) : State :=
  let s := if bitOf (x.desc.getD 0 0) 17 then objAdd (fieldOf s 0 0x014 (0x160 + 0x80 * k) 16 0) (BitVec.ofNat 64 x.unreported) s
    else s
  modChan ch (fun z => { dropActive x z with lastOutcome := 2 }) s

/-- Of the detached transfers of module-wide channel k, those that satisfy p are stopped (R276): a descriptor that waits in the
shadow set is discarded unrun; the transfer in the active set ends at once, or, where its rows go to another module, at its row
boundary and after the read-back. (DEDUCED, log entry 48.) -/
def abortWhere (p : Xfer → Bool) (k : Fin 8) (s : State) : State :=
  let ch : ChanId := Fin.ofNat 40 (32 + k.val)
  let x := s.chan ch
  let hit := fun (y : Xfer) => y.owner.isNone && p y
  let s := match x.shadow with
    | some y => if hit y then modChan ch (fun z => { dropShadow y z with lastOutcome := 2 }) s else s
    | none => s
  match x.active with
  | some y =>
    if !hit y then s
    else if remoteDst s y ∧ (0 < y.written ∨ 0 < y.wpart) then
      modChan ch (fun z => unsuspend y { z with active := some (stopAtRow 1 y) }) s
    else finishAbort ch k.val y s
  | none => s

/-- Whatever detached transfers the channel holds are stopped. -/
def abortDetached (k : Fin 8) (s : State) : State := abortWhere (fun _ => true) k s

/-- SLOTWR (R228). -/
def logSlotwr (c : CoreId) (n : Nat) (s : State) : State := logEvent (coreP c 1) 3 [n] s

/-- A cancel of one slot by a cancel of its context (R224, R225): a FAILED one returns to IDLE, and of a CANCELLING one it is
skipped. -/
def cancelArmed (c : CoreId) (n : Nat) (s : State) : State :=
  let st := (slotOf (s.core c) n).state
  if st = 5 then modCore c (setSlot n 0) s
  else if st = 4 then logSlotwr c n s
  else cancelSlot c n s

/-- Every slot of a context that is not IDLE is cancelled on every core, and its detached transfers are aborted
(R224, R225, R276). -/
def cancelContext (ctx : Nat) (s : State) : State :=
  let onCore := fun (c : CoreId) (s : State) =>
    forAll (fun n s => if slotCtx s c n = ctx then cancelArmed c n s else s) ((s.core c).sched.slots.map (·.1)) s
  let s := forAll onCore allCores s
  forAll (fun (k : Fin 8) s => abortWhere (fun y => y.ctx == ctx) k s) [0, 1, 2, 3, 4, 5, 6, 7] s

/-! ### Jobs and containment (R412 to R414) -/

/-- A context's REL_CTXJOB word: its job number in [13:0], CONTAINED in [16]; the reset job is the context's own number.
(DEDUCED, log entry 50.) -/
def jobWord (s : State) (ctx : Nat) : Nat :=
  match mfind s.regs (rkey (entryBank ctx) 0x003 0x138) with
  | some w => w.toNat
  | none => ctx

/-- A context's job. -/
def jobOf (s : State) (ctx : Nat) : Nat := bitsOf (jobWord s ctx) 13 0

/-- The contexts of a job: the one of the job's own number, and those whose job number was written. -/
def jobContexts (s : State) (job : Nat) : List Nat :=
  let written := s.regs.filterMap fun p =>
    if p.1 % (16384 * 1024) = 0x003 * 1024 + 0x138 / 4 ∧ 65536 ≤ p.1 / (16384 * 1024) ∧ p.1 / (16384 * 1024) < 65536 + 16384
    then some (p.1 / (16384 * 1024) - 65536) else none
  (written.foldl kins [job]).filter (fun x => jobOf s x == job)

/-- A context is contained: its ENABLE is cleared, it is cancelled, and CONTAINED is set (R414). -/
def containContext (ctx : Nat) (s : State) : State :=
  let s := setField (entryBank ctx) 0x009 0x104 0 0 0 s
  let s := cancelContext ctx s
  setWord (entryBank ctx) 0x003 0x138 (putBits (jobWord s ctx) 16 16 1) s

/-- A job is contained, with the cause of CONTAIN (R414, R424), charged to the step of the task that caused it, else to the
module's (R397). -/
def containJob (step job cause : Nat) (s : State) : State :=
  let s := forAll containContext (jobContexts s job) s
  chargeClass 6 step (logEvent 0x003 3 [job + cause * 2 ^ 16] s)

/-- Poison is consumed for a context (R413, R414): POISONUSE with the consumer's code and the address, and containment.
(DEDUCED, log entry 51.) -/
def consumePoison (step ctx consumer a : Nat) (s : State) : State :=
  containJob step (jobOf s ctx) 1 (logEvent 0x003 5 [consumer, a % 2 ^ 32, a / 2 ^ 32 % 2 ^ 12] s)

/-- What a task's transfers still send of a row that they have begun is marked poisoned from now on (R413). -/
def taintCore (c : CoreId) (k : Chan) : Chan :=
  let f := fun (x : Xfer) => if x.ofCore c then { x with tainted := true } else x
  { k with active := k.active.map f, shadow := k.shadow.map f }

/-- Poison is consumed for core c's task by a consumer of a code of R261 (R413). -/
def consumeBy (who : Nat) (c : CoreId) (a : Nat) (s : State) : State :=
  match (s.core c).sched.task with
  | none => s
  | some t => consumePoison t.step t.ctx who a { s with chans := s.chans.map (taintCore c) }

/-- Poison is consumed by core c's task. -/
def consumeTask (c : CoreId) (a : Nat) (s : State) : State := consumeBy c.val c a s

/-- The first poisoned byte range of a list, if any. -/
def firstPoison (s : State) (rs : List (Nat × Nat)) : Option Nat :=
  (rs.find? (fun r => poisoned s r.1 r.2)).map (·.1)

end Sys2Proof.Machine
end

