-- ==== Sys2Proof/Machine/CtxOps.lean ====
section
/-! DEFINITION. Contexts: their owner, who qualifies for them (R223), and their armed slots (R230). -/
namespace Sys2Proof.Machine

/-- CTX_OWNER of a context: PORT, FUNC, ASSIGNED (R230). -/
def ctxOwner (s : State) (ctx : Nat) : Nat := rawWord s (entryBank ctx) 0x009 0x108

/-- A function owns a context (R223). -/
def ownsCtx (s : State) (p : Fin 2) (f : Fin 65) (ctx : Nat) : Bool :=
  let w := ctxOwner s ctx
  bitOf w 8 && bitsOf w 0 0 == p.val && bitsOf w 7 1 == f.val

/-- A function qualifies for a context: it owns it, or is the physical function of the owner's port (R223). -/
def funcQualifies (s : State) (p : Fin 2) (f : Fin 65) (ctx : Nat) : Bool :=
  let w := ctxOwner s ctx
  bitOf w 8 && bitsOf w 0 0 == p.val && (f.val == 0 || bitsOf w 7 1 == f.val)

/-- The function of a requester qualifies, or the requester is Vesper: who may write a context's fields (R223). -/
def mayWriteCtx (s : State) (r : Req) (ctx : Nat) : Bool :=
  match r with
  | .vesper => true
  | .func p f => funcQualifies s p f ctx
  | .core _ => false

/-- The requester qualifies for a context in the sense of R259 check 4. -/
def memQualifies (s : State) (r : Req) (ctx : Nat) : Bool :=
  match r with
  | .vesper => true
  | .func p f => funcQualifies s p f ctx
  | .core c => match (s.core c).sched.task with
    | some t => t.ctx == ctx
    | none => false

/-- CTX_STAT ARMED: slots of the context that are not IDLE, over all cores (R230). -/
def armedCount (s : State) (ctx : Nat) : Nat :=
  allCores.foldl (fun n c => n + (s.core c).sched.slots.countP (fun p => decide (slotCtx s c p.1 = ctx))) 0

/-- Contexts of every core's slots that are not IDLE. -/
def armedContexts (s : State) : List Nat :=
  allCores.foldl (fun l c => (s.core c).sched.slots.foldl (fun l p => kins l (slotCtx s c p.1)) l) []

end Sys2Proof.Machine
end

