-- ==== Sys2Proof/Machine/RelOps.lean ====
section
/-! DEFINITION. What several commands do to the reliability state: entries for the logbook (R416) and memory-error events. -/
namespace Sys2Proof.Machine

/-- The reliability page. -/
def relPage : Nat := 0x003

/-- The state with Vesper's reliability state changed. -/
def modRel (f : Rel → Rel) (s : State) : State := { s with rel := f s.rel }

/-- An entry that Vesper has to write (R416); its sequence number, boot count and time are filled in at the writing. -/
def queueLog (kind cls index detail : Nat) (s : State) : State :=
  let e : LogEntry :=
    { seq := 0, boot := 0, cycles := 0, kind := kind, cls := cls, index := index, detail := detail, hours := s.power.hours,
      unit := 0 }
  modRel (fun r => { r with toWrite := r.toWrite ++ [e] }) s

/-- The entry of a retirement, which also keeps the frame or extent (R258; DEDUCED, log entry 29). -/
def queueRetire (cls index detail unit : Nat) (s : State) : State :=
  let e : LogEntry :=
    { seq := 0, boot := 0, cycles := 0, kind := 4, cls := cls, index := index, detail := detail, hours := s.power.hours,
      unit := unit }
  modRel (fun r => { r with toWrite := r.toWrite ++ [e] }) s

/-! ### Units (R401) -/

/-- A unit's code: class × 256 + index. -/
def unitKey (cls idx : Nat) : Nat := cls * 256 + idx

/-- The unit has been withdrawn (R417). -/
def withdrawn (s : State) (cls idx : Nat) : Bool := s.rel.withdrawn.contains (unitKey cls idx)

/-- Core c is in service: its bit of REL_CAP (R417, R451). -/
def inService (s : State) (c : CoreId) : Bool := bitOf (rawWord s 0 relPage 0x130) c.val

/-- MEMERR (R410, R424). -/
def logMemerr (cause cls a : Nat) (s : State) : State :=
  logEvent relPage 6 [cause + cls * 2 ^ 4, a % 2 ^ 32, a / 2 ^ 32 % 2 ^ 12] s

/-- The detail of an entry about a task: its slot and context (R416). -/
def taskDetail (t : Task) : Nat := t.slot + t.ctx * 2 ^ 16

end Sys2Proof.Machine
end

