-- ==== Sys2Proof/Machine/StartOps.lean ====
section
/-! DEFINITION. The configuration flash with its boot-state sector (R443, R444), the configuration record in use (R450) and the
start of Meridian (R470, R471). -/
namespace Sys2Proof.Machine

/-! ### The configuration flash (R443, R450) -/

/-- A byte of the configuration flash; an erased byte reads 0xFF. -/
def flashByte (s : State) (a : Nat) : Byte := mget (0xFF : Byte) s.vesper.flash a

/-- n bytes of the flash. -/
def flashBytes (s : State) (a n : Nat) : List Byte := (List.range n).map (fun k => flashByte s (a + k))

/-- The Vesper page, and the state with Vesper changed. -/
def vesperPage : Nat := 0x001
def modVesper (f : Vesper → Vesper) (s : State) : State := { s with vesper := f s.vesper }

/-- Data written into the flash from an address upwards. -/
def programFlash (a : Nat) (bs : List Byte) (s : State) : State :=
  modVesper (fun v =>
    { v with flash := ((List.range bs.length).zip bs).foldl (fun m x => mput (0xFF : Byte) m (a + x.1) x.2) v.flash }) s

/-- n bytes of the flash erased. -/
def eraseFlash (a n : Nat) (s : State) : State := modVesper (fun v => { v with flash := dropRange a (a + n) v.flash }) s

/-- The places of a table in the flash, n entries of a size from an address, at which anything is written, rising. -/
def flashSlots (s : State) (a size n : Nat) : List Nat :=
  (s.vesper.flash.filter (fun x => decide (a ≤ x.1 ∧ x.1 < a + size * n))).foldl (fun l x => kins l ((x.1 - a) / size)) []

/-- The last four bytes of a run of flash are the CRC-32C of those before. -/
def flashCrcOk (s : State) (a n : Nat) : Bool :=
  flashBytes s (a + (n - 4)) 4 == bytesOfNat 4 (crc32c (flashBytes s a (n - 4))).toNat

/-! ### Messages of the management network (R461) -/

/-- The UDP port or SMBus address that messages come from on a path. -/
def wireSource (s : State) : Path → Nat
  | .ethernet => bitsOf (rawWord s 0 vesperPage 0x1A8) 15 0
  | .smbus => s.vesper.smbAddr
  | .doe _ => 0

/-- A message in packets: in datagrams of a prefix and at most 1,024 bytes, in SMBus packets of at most 64 bytes, or whole as one
data object. -/
def wirePackets (path : Path) (body : List Byte) : List (List Byte) :=
  match path with
  | .ethernet => (chunks 1024 body.length body).map ([1, 0, 0, 0] ++ ·)
  | .smbus => chunks 64 body.length body
  | .doe _ => [body]

/-- A message as it leaves on a path. -/
def letter (s : State) (path : Path) (kind : Nat) (body : List Byte) : Out :=
  .mgmt path kind (wireSource s path) (wirePackets path body)

/-- A message leaves on a path. -/
def mail (path : Path) (kind : Nat) (body : List Byte) (s : State) : State :=
  { s with out := s.out ++ [letter s path kind body] }

/-! ### The boot-state sector (R444) -/

/-- Where copy k of the boot state lies; its layout is the model's: sequence number, boot count, the flags, their CRC-32C
(DESIGN CHOICE, log entry 9). -/
def bootAt (k : Nat) : Nat := 0x8000 * k

/-- The bytes of a copy of the boot state: [0] the preferred slot, [1] the trial flag, [2] and [3] the failed flags. -/
def bootBytes (v : Vesper) : List Byte :=
  let flag := fun (b : Bool) (k : Nat) => if b then 2 ^ k else 0
  let body := bytesOfNat 4 v.bootSeq ++ bytesOfNat 4 v.bootCount ++
    bytesOfNat 4 (v.prefSlot % 2 + flag v.trialFlag 1 + flag (v.failed.contains 0) 2 + flag (v.failed.contains 1) 3)
  body ++ bytesOfNat 4 (crc32c body).toNat

/-- The boot state is changed: the copy that is not in force is written, with the next sequence number. -/
def modBoot (f : Vesper → Vesper) (s : State) : State :=
  let s := modVesper (fun v => { f v with bootSeq := v.bootSeq + 1 }) s
  programFlash (bootAt (s.vesper.bootSeq % 2)) (bootBytes s.vesper) s

/-- The valid copy of the boot state with the higher sequence number. -/
def bootCopy (s : State) : Option Nat :=
  let seq := fun (k : Nat) => natOfBytes (flashBytes s (bootAt k) 4)
  let ok := fun (k : Nat) => flashCrcOk s (bootAt k) 16
  if ok 0 && ok 1 then some (if seq 0 < seq 1 then 1 else 0) else if ok 0 then some 0 else if ok 1 then some 1 else none

/-- The boot state read in stage ROM; with no valid copy it is that of a module never booted (DESIGN CHOICE, log entry 9). -/
def loadBoot (s : State) : State :=
  let word := fun (k i : Nat) => natOfBytes (flashBytes s (bootAt k + 4 * i) 4)
  match bootCopy s with
  | none => modVesper (fun v => { v with bootSeq := 0, bootCount := 0, prefSlot := 0, trialFlag := false, failed := [] }) s
  | some k =>
    let w := word k 2
    modVesper (fun v =>
      { v with bootSeq := word k 0, bootCount := word k 1, prefSlot := bitsOf w 0 0, trialFlag := bitOf w 1
               failed := [0, 1].filter (fun i => bitOf w (2 + i)) }) s

/-! ### The record in use (R450) -/

/-- Where copy k of the record lies. -/
def recordAt (k : Nat) : Nat := 0x10000 + 0x10000 * k

/-- A little-endian field of the record copy in use: n bytes from byte k. -/
def recordNat (s : State) (k n : Nat) : Nat := natOfBytes (flashBytes s (recordAt s.vesper.cfgCopy + k) n)

/-- The trim area of the record copy in use: its trim and almanac-baseline entries. -/
def trimArea (s : State) : List Byte := flashBytes s (recordAt s.vesper.cfgCopy + 288) (recordNat s 284 4)

/-! ### Starting Meridian -/

/-- The power page. -/
def powerPage : Nat := 0x002

/-- The state with power, clocks and ageing changed. -/
def modPower (f : Power → Power) (s : State) : State := { s with power := f s.power }

/-- PWRSKIP (R491). -/
def logPwrskip (s : State) : State := logEvent powerPage 7 [] s

/-- A trigger starts Meridian (R471): from OFF or RETAIN it begins to start, unless REFCLK156 is absent (R514); a stop in
progress completes first (R489), and no start falls in a trip (R483, R489). -/
def startMeridian (s : State) : State :=
  if s.power.modState ≠ 2 ∨ s.power.tripped then s
  else if s.power.meridian = 3 then modPower (fun p => { p with startAfter := true }) s
  else if s.power.meridian = 0 ∨ s.power.meridian = 4 then
    if s.power.refclk156 then modPower (fun p => { p with meridian := 1, fromOff := p.meridian == 0 }) s else logPwrskip s
  else s

/-- A debug scope is open (R460): it was opened, and its lifetime has not ended; at the cycle of the end it is closed (R466). -/
def scopeOpen (s : State) (k : Nat) : Bool :=
  bitOf s.vesper.scopes k && decide (s.now < mget (s.now + 1) s.vesper.scopeEnds k)

/-- The challenge while it is valid, for 10 minutes (R458). -/
def challengeOf (s : State) : Option (BitVec 256 × Nat) := s.vesper.challenge.filter (fun x => decide (s.now < x.2))

end Sys2Proof.Machine
end

