-- ==== Sys2Proof/Machine/MemOps.lean ====
section
/-! DEFINITION. Unified memory: the local map (R231), pages, tiles and how accesses are served (R237 to R243), the LP5X format
(R246, R247), quotas and eviction (R248 to R253), retirement (R258), and reads and writes of any window (R232, R233). -/
namespace Sys2Proof.Machine

/-- The memory page, and requester codes of R261 above the cores' 0 to 3. -/
def memPage : Nat := 0x005
def whoWide : Nat := 4
def whoFabric : Nat := 5
def whoGnomon : Nat := 6
def whoVesper : Nat := 9

/-- The code of R261 of a requester. -/
def whoReq : Req → Nat
  | .core c => c.val
  | .func p _ => 7 + p.val
  | .vesper => 9

/-! ### The local map (R231) -/

/-- A range of R231. -/
inductive Win where
  | unified
  | tile (c : Nat)
  | slice
  | ipage (c p : Nat)
  | dmem (c : Nat)
  | regs
  | debug
  | reserved
  deriving DecidableEq, Repr

/-- The range that holds a local address. -/
def winOf (a : Nat) : Win :=
  if a < 0x30000000000 then .unified
  else if 0xE0000000000 ≤ a ∧ a < 0xE0008000000 then .tile ((a - 0xE0000000000) / 0x2000000)
  else if 0xE0010000000 ≤ a ∧ a < 0xE0018000000 then .slice
  else if 0xE0020000000 ≤ a ∧ a < 0xE0020100000 then
    .ipage ((a - 0xE0020000000) / 0x40000) ((a - 0xE0020000000) / 0x10000 % 4)
  else if 0xE0020100000 ≤ a ∧ a < 0xE0020140000 then .dmem ((a - 0xE0020100000) / 0x10000)
  else if 0xF0000000000 ≤ a ∧ a < 0xF0001000000 then .regs
  else if 0xF8000000000 ≤ a ∧ a < 0xF8002000000 then .debug
  else .reserved

/-- The range that a local address names on this module: the memories of a withdrawn core, gated for good (R473), are no part of
its capacity (R24) and read as reserved (DESIGN CHOICE, log entry 72). -/
def winIn (s : State) (a : Nat) : Win :=
  match winOf a with
  | .tile c => if withdrawn s 0 c then .reserved else .tile c
  | .ipage c p => if withdrawn s 0 c then .reserved else .ipage c p
  | .dmem c => if withdrawn s 0 c then .reserved else .dmem c
  | .unified => .unified
  | .slice => .slice
  | .regs => .regs
  | .debug => .debug
  | .reserved => .reserved

/-- The gated core whose memories an address lies in: an access wakes it, and waits (R473). -/
def asleepAt (s : State) (a : Nat) : Option CoreId :=
  let c := match winIn s a with
    | .tile c => some c
    | .ipage c _ => some c
    | .dmem c => some c
    | .unified => none
    | .slice => none
    | .regs => none
    | .debug => none
    | .reserved => none
  (c.filter (fun c => s.power.gated.contains c)).map (Fin.ofNat 4)

/-- A gated core begins to wake, unless it has been withdrawn (R473). -/
def wakeCore (c : CoreId) (s : State) : State :=
  if s.power.meridian = 2 ∧ s.power.gated.contains c.val ∧ !withdrawn s 0 c.val then
    modCore c (fun k => { k with sched := { k.sched with waking := true } }) s
  else s

/-! ### Pages and tiles (R236 to R238) -/

/-- The state with the migration engine changed. -/
def modMig (f : Mig → Mig) (s : State) : State := { s with mig := f s.mig }

/-- Page and tile numbers of a unified address. -/
def pageOf (a : Nat) : Nat := a / 0x200000
def tileNo (a : Nat) : Nat := a / 4096

/-- The tiles, and the pages, that a range of n bytes meets. -/
def rangeTiles (a n : Nat) : List Nat :=
  if n = 0 then [] else (List.range (tileNo (a + n - 1) - tileNo a + 1)).map (tileNo a + ·)
def rangePages (a n : Nat) : List Nat :=
  if n = 0 then [] else (List.range (pageOf (a + n - 1) - pageOf a + 1)).map (pageOf a + ·)

/-- An allocated page. -/
def State.mpage (s : State) (p : Nat) : Option MPage := mfind s.mig.pages p

/-- The page is allocated. -/
def allocated (s : State) (p : Nat) : Bool := (s.mpage p).isSome

/-- The state with an allocated page changed. -/
def modPage (p : Nat) (f : MPage → MPage) (s : State) : State :=
  match s.mpage p with
  | some x => modMig (fun m => { m with pages := mset m.pages p (f x) }) s
  | none => s

/-- A tile's condition, by its number in unified memory. -/
def condOf (s : State) (t : Nat) : TileCond := mget .zero s.mig.tiles t

/-- The state with a tile's condition set. -/
def setCond (t : Nat) (c : TileCond) (s : State) : State := modMig (fun m => { m with tiles := mput .zero m.tiles t c }) s

/-- The tiles of a page in a condition, ascending. -/
def tilesIn (s : State) (p : Nat) (c : TileCond) : List Nat :=
  s.mig.tiles.filterMap (fun x => if x.1 / 512 = p ∧ x.2 = c then some x.1 else none)

/-- A tile's bytes are all zero. -/
def tileZero (s : State) (t : Nat) : Bool := s.mem.all (fun p => decide (p.1 / 4096 ≠ t))

/-- A tile has a poisoned line (R247). -/
def tilePoisoned (s : State) (t : Nat) : Bool := poisoned s (4096 * t) 4096

/-! ### The LP5X format (R246, R247) -/

/-- A signed byte lies in −2^c to 2^c − 1. -/
def fitsCode (c : Nat) (b : Byte) : Bool := decide (-(2 ^ c : Int) ≤ b.toInt ∧ b.toInt ≤ 2 ^ c - 1)

/-- The code of a line. -/
def lineCode (bs : List Byte) : Nat := ((List.range 8).find? (fun c => bs.all (fitsCode c))).getD 7

/-- The 64 lines of a tile's bytes. -/
def tileLines (bs : List Byte) : List (List Byte) := (List.range 64).map (fun i => (bs.drop (64 * i)).take 64)

/-- A line holds a non-zero byte. -/
def lineSet (l : List Byte) : Bool := !l.all (fun b => b == 0)

/-- Plane k of a line: bit j is bit k of byte j. -/
def planeOf (l : List Byte) (k : Nat) : List Byte :=
  bytesOfNat 8 ((List.range 64).foldl (fun a j => a + (if (l.getD j 0).getLsbD k then 2 ^ j else 0)) 0)

/-- The planes that are stored for a line. -/
def linePlanes (l : List Byte) : List Byte :=
  if lineSet l then (List.range (lineCode l + 1)).flatMap (planeOf l) else []

/-- The coded body of a tile's bytes: line map, plane codes, planes. -/
def codedBody (bs : List Byte) : List Byte :=
  let ls := tileLines bs
  bytesOfNat 8 ((List.range 64).foldl (fun a i => a + (if lineSet (ls.getD i []) then 2 ^ i else 0)) 0) ++
  bytesOfNat 24 ((List.range 64).foldl
    (fun a i => a + (if lineSet (ls.getD i []) then lineCode (ls.getD i []) else 0) * 2 ^ (3 * i)) 0) ++
  ls.flatMap linePlanes

/-- A line decoded from its c + 1 planes: byte j is the sign extension of its lowest c + 1 bits. -/
def decodeLine (c : Nat) (planes : List Byte) : List Byte :=
  (List.range 64).map fun j =>
    BitVec.ofNat 8 ((List.range 8).foldl (fun a k =>
      a + (if (natOfBytes ((planes.drop (8 * min k c)).take 8)).testBit j then 2 ^ k else 0)) 0)

/-- n lines from line i on, decoded from what remains of the planes. -/
def decodeLines (map codes : Nat) : Nat → Nat → List Byte → List Byte
  | 0, _, _ => []
  | n + 1, i, rest =>
    if map.testBit i then
      let c := codes / 2 ^ (3 * i) % 8
      decodeLine c (rest.take (8 * (c + 1))) ++ decodeLines map codes n (i + 1) (rest.drop (8 * (c + 1)))
    else List.replicate 64 0 ++ decodeLines map codes n (i + 1) rest

/-- The tile that a coded body decodes to. -/
def decodeBody (body : List Byte) : List Byte :=
  decodeLines (natOfBytes (body.take 8)) (natOfBytes ((body.drop 8).take 24)) 64 0 (body.drop 32)

/-- The coded length of a tile. -/
def codedLen (s : State) (t : Nat) : Nat :=
  32 + (List.range 64).foldl (fun n i =>
    let line := memGetAll s.mem (4096 * t + 64 * i) 64
    if line.all (fun b => b == 0) then n else n + 8 * (lineCode line + 1)) 0

/-- The body stored for a tile (R247): none for a zero one, raw with a poisoned line or where coding gains nothing, else
coded. -/
def storedBody (s : State) (t : Nat) : List Byte :=
  let bs := memGetAll s.mem (4096 * t) 4096
  if tilePoisoned s t then bs else if tileZero s t then [] else if codedLen s t < 4096 then codedBody bs else bs

/-- Body bytes stored for a tile, in whole 64-byte units (R246). -/
def storedBytes (s : State) (t : Nat) : Nat :=
  if tilePoisoned s t then 4096 else if tileZero s t then 0 else min 4096 ((codedLen s t + 63) / 64 * 64)

/-! ### Counts (R244, R248) -/

/-- Frames and extents fitted: what the record says (R450), the most there can be before a record is in use. -/
def framesFitted (s : State) : Nat := if s.vesper.cfgOk then min (recordNat s 276 4) 524288 else 524288
def extentsFitted (s : State) : Nat := if s.vesper.cfgOk then min (recordNat s 280 4) 1045504 else 1045504

/-- Frames and extents in service: those fitted, less the retired ones (R451). -/
def framesIn (s : State) : Nat := framesFitted s - s.mig.badFrames.length
def extentsIn (s : State) : Nat := extentsFitted s - s.mig.badExtents.length

/-- What remains of the reserve, and the pool (R244, R258). -/
def reserveLeft (s : State) : Nat := 256 - s.mig.reserveUsed
def poolOf (s : State) : Nat := framesIn s + extentsIn s - reserveLeft s

/-- The high mark in force (R251). -/
def highMark (s : State) : Nat :=
  let lo := fieldOf s 0 memPage 0x100 19 0
  let hi := fieldOf s 0 memPage 0x104 19 0
  if hi ≤ lo then lo + 1 else hi

/-- How many pages satisfy p. -/
def countPages (s : State) (p : MPage → Bool) : Nat := s.mig.pages.countP (fun x => p x.2)

/-- Free frames and free extents. -/
def freeFrames (s : State) : Nat := framesIn s - countPages s (fun x => x.frame.isSome)
def freeExtents (s : State) : Nat := extentsIn s - countPages s (fun x => x.extent.isSome)

/-- Use, pinned count and allocated pages of a context. -/
def useOf (s : State) (ctx : Nat) : Nat := countPages s (fun x => x.ctx == ctx && x.frame.isSome)
def pinnedOf (s : State) (ctx : Nat) : Nat := countPages s (fun x => x.ctx == ctx && x.pinned)
def allocOf (s : State) (ctx : Nat) : Nat := countPages s (fun x => x.ctx == ctx)

/-- Q and the limit of a context. -/
def quotaOf (s : State) (ctx : Nat) : Nat := fieldOf s (entryBank ctx) memPage 0x154 20 0
def limitOf (s : State) (ctx : Nat) : Nat := fieldOf s (entryBank ctx) memPage 0x158 20 0

/-- Effective quota and quota floor; the context is over quota, and marked OVERQ (R248). -/
def effQuota (s : State) (ctx : Nat) : Nat := max (quotaOf s ctx) (pinnedOf s ctx)
def quotaFloor (s : State) (ctx : Nat) : Nat := pinnedOf s ctx - quotaOf s ctx
def overQuota (s : State) (ctx : Nat) : Bool := decide (effQuota s ctx < useOf s ctx)

/-- The lowest number below a bound that is not in use (DESIGN CHOICE, log entry 18). -/
def lowestFree (used : List Nat) (bound : Nat) : Option Nat :=
  (List.range (min bound (used.length + 1))).find? (fun n => !used.contains n)

/-- The lowest-numbered free frame and extent. -/
def freeFrame (s : State) : Option Nat :=
  lowestFree (s.mig.pages.filterMap (fun x => x.2.frame) ++ s.mig.badFrames) (framesFitted s)
def freeExtent (s : State) : Option Nat :=
  lowestFree (s.mig.pages.filterMap (fun x => x.2.extent) ++ s.mig.badExtents) (extentsFitted s)

/-- A page's age (R250, R257), in ticks counted by AGE_TICK (DESIGN CHOICE, log entry 19). -/
def ageOf (s : State) (x : MPage) : Nat :=
  if x.frame.isNone then 0
  else if x.place = 2 ∧ 0 < armedCount s x.ctx then 0
  else min (s.mig.ticks - x.touched) 65535

/-- A context has had no armed slot for MIG_SEQIDLE ticks (R257). -/
def ctxIdle (s : State) (ctx : Nat) : Bool :=
  armedCount s ctx == 0 && decide (fieldOf s 0 memPage 0x108 15 0 ≤ s.mig.ticks - mget 0 s.mig.idleSince ctx)

/-! ### Candidates (R250) -/

/-- The waiter still waits: a channel may have dropped its transfer since. -/
def stillWaits (s : State) (w : Waiter) : Bool :=
  match w.what with
  | .chan ch => let k := s.chan (Fin.ofNat 40 ch); k.suspended.isSome || k.resumed.isSome
  | .msg _ => true
  | .rop _ _ _ _ _ => true
  | .home _ _ _ => true
  | .window _ => true

/-- An access waits on a page: a fault of one of its tiles is queued, a waiter meets it, or a host port holds an access of a
memory window to it (R431). -/
def pageWaited (s : State) (p : Nat) : Bool :=
  s.mig.faults.any (fun f => decide (f.1 / 512 = p)) ||
    s.mig.waiters.any (fun w => stillWaits s w && w.tiles.any (fun t => decide (t / 512 = p))) ||
    s.hosts.toList.any (fun h => h.windowQ.any (fun w => w.ctl.isNone && (rangePages w.addr w.len).contains p))

/-- A page may be evicted: it holds a frame, is not pinned, is not under migration, and no access waits on it. -/
def evictable (s : State) (p : Nat) (x : MPage) : Bool := x.frame.isSome && !x.pinned && x.moving == 0 && !pageWaited s p

/-- The class of a candidate. -/
def victimClass (s : State) (x : MPage) : Nat := if x.place = 1 then 0 else if x.place = 2 ∧ ctxIdle s x.ctx then 1 else 2

/-- The earlier of two candidates: lower class, then higher age, then lower page number. -/
def better (s : State) (a b : Nat × MPage) : Bool :=
  let ca := victimClass s a.2
  let cb := victimClass s b.2
  if ca ≠ cb then decide (ca < cb)
  else if ageOf s a.2 ≠ ageOf s b.2 then decide (ageOf s b.2 < ageOf s a.2)
  else decide (a.1 < b.1)

/-- The first candidate among the pages that satisfy p. -/
def candidate (s : State) (p : MPage → Bool) : Option Nat :=
  let l := s.mig.pages.filter (fun x => evictable s x.1 x.2 && p x.2)
  (l.foldl (fun best x => match best with
    | none => some x
    | some y => if better s x y then some x else some y) none).map (·.1)

/-! ### Moving tiles (R242, R243) -/

/-- A LOW tile is fetched into the page's frame. -/
def fetchTile (t : Nat) (s : State) : State := bumpPair memPage 0x188 1 (setCond t .clean s)

/-- Every LOW tile of a page fetched. -/
def fetchAll (p : Nat) (s : State) : State :=
  modPage p (fun x => { x with moving := if x.moving = 1 then 0 else x.moving }) (forAll fetchTile (tilesIn s p .low) s)

/-- The page takes the lowest free frame, if one is free; its age starts at 0 (R250). -/
def giveFrame (p : Nat) (s : State) : State :=
  match freeFrame s with
  | some f => modPage p (fun x => { x with frame := some f, touched := s.mig.ticks, wantsFrame := false }) s
  | none => s

/-- Meridian is in RUN: only then does a page take a frame, and are tiles moved (R470, R471). -/
def hbmRuns (s : State) : Bool := s.power.meridian == 2

/-- A frame that comes free goes to a pinned page that waits for one (R258), while Meridian runs (R483). -/
def feedPinned (s : State) : State :=
  match s.mig.pages.find? (fun x => x.2.wantsFrame) with
  | some (p, _) => if hbmRuns s && (freeFrame s).isSome then fetchAll p (giveFrame p s) else s
  | none => s

/-- Every pinned page that waits for a frame takes one, as far as frames reach. -/
def feedAll (s : State) : State := (s.mig.pages.filter (fun x => x.2.wantsFrame)).foldl (fun s _ => feedPinned s) s

/-- Counts of a tile written to LP5X. -/
def countWritten (t : Nat) (s : State) : State := bumpPair memPage 0x198 (storedBytes s t) (bumpPair memPage 0x190 1 s)

/-- The older of two pages with no candidate order of its own: higher age, then lower number. -/
def oldest (s : State) (l : List (Nat × MPage)) : Option Nat :=
  (l.foldl (fun best x => match best with
    | none => some x
    | some y => if ageOf s y.2 < ageOf s x.2 then some x else some y) none).map (·.1)

/-- A page's extent taken from it: its CLEAN tiles become DIRTY. -/
def surrenderExtent (q : Nat) (s : State) : State :=
  modPage q (fun x => { x with extent := none }) (forAll (fun t s => setCond t .dirty s) (tilesIn s q .clean) s)

/-- An extent made free for page p when none is (R243); a background fetch is completed only while Meridian runs. -/
def makeExtent (p : Nat) (s : State) : State :=
  let shadows := s.mig.pages.filter (fun x => x.1 != p && x.2.frame.isSome && x.2.extent.isSome)
  match oldest s (shadows.filter (fun x => (tilesIn s x.1 .low).isEmpty)) with
  | some q => surrenderExtent q s
  | none =>
    match oldest s shadows with
    | some q => if hbmRuns s then surrenderExtent q (fetchAll q s) else s
    | none => s

/-- The page holds an extent, acquiring one if it has none: for a demotion (R243), and alike for a Gnomon-side write and for the
retirement of its extent. With none to take the page keeps none, its LOW tiles as they are (DESIGN CHOICE, log entry 102). -/
def acquireExtent (p : Nat) (s : State) : State :=
  match s.mpage p with
  | none => s
  | some x =>
    if x.extent.isSome then s
    else
      let s := if (freeExtent s).isSome then s else makeExtent p s
      modPage p (fun x => { x with extent := freeExtent s }) s

/-- A DIRTY tile is written into the extent, or found all zero (R243, R247). -/
def writeTile (t : Nat) (s : State) : State :=
  if tileZero s t && !tilePoisoned s t then setCond t .zero s else setCond t .clean (countWritten t s)

/-- Step 1 of a demotion (R243). -/
def writeBackPage (p : Nat) (s : State) : State :=
  let dirty := tilesIn s p .dirty
  if dirty.isEmpty then s else forAll writeTile dirty (acquireExtent p s)

/-- A demotion: step 1, then the frame is released (R243), which a pinned page may wait for (R258). -/
def demotePage (p : Nat) (s : State) : State :=
  let s := writeBackPage p s
  feedAll (modPage p (fun x => { x with frame := none, moving := 0 })
    (forAll (fun t s => setCond t .low s) (tilesIn s p .clean) s))

/-- A demotion on the migration engine's own account (R250, R260). -/
def evictPage (p : Nat) (s : State) : State := bumpPair memPage 0x1A0 1 (demotePage p s)

/-- A write-back in progress on a page has ended; the background fetch of the rest goes on (R242). -/
def endWriteback (p : Nat) (s : State) : State :=
  let more := !(tilesIn s p .low).isEmpty
  modPage p (fun x =>
    { x with moving := if x.moving = 3 then 0 else if x.moving = 5 then (if more then 1 else 0) else x.moving }) s

/-- An operation in progress on a page ends before an access to it is served (R241, R243; DEDUCED, log entry 97). -/
def quiesce (p : Nat) (s : State) : State :=
  match s.mpage p with
  | none => s
  | some x =>
    if x.moving = 2 then demotePage p s
    else if x.moving = 4 then evictPage p s
    else if x.moving = 3 ∨ x.moving = 5 then endWriteback p (writeBackPage p s)
    else s

/-! ### Frames (R251) -/

/-- OVERQ (R251, R253, R261). -/
def logOverq (ctx : Nat) (s : State) : State := logEvent memPage 1 [ctx] s

/-- A frame is made free, by evicting the module's first candidate, when none is. -/
def makeFrame (s : State) : State :=
  if (freeFrame s).isSome then s
  else match candidate s (fun _ => true) with
    | some q => evictPage q s
    | none => s

/-- A page without a frame is given one by R251; while Meridian does not run, none is (R470). -/
def takeFrame (p : Nat) (s : State) : State :=
  match s.mpage p with
  | none => s
  | some x =>
    if x.frame.isSome ∨ !hbmRuns s then s
    else if effQuota s x.ctx ≤ useOf s x.ctx then
      match candidate s (fun y => y.ctx == x.ctx) with
      | some q => giveFrame p (evictPage q s)
      | none =>
        let s := giveFrame p (makeFrame s)
        if overQuota s x.ctx then logOverq x.ctx s else s
    else giveFrame p (makeFrame s)

/-! ### Events of an access -/

/-- The capture of an address with its requester code (R261). -/
def addrCapture (a who : Nat) : List Nat := [a % 2 ^ 32, a / 2 ^ 32 % 2 ^ 12, who]

/-- UNMAPPED and UNALLOC (R232, R237). -/
def logUnmapped (a who : Nat) (s : State) : State := logEvent memPage 4 (addrCapture a who) s
def logUnalloc (a who : Nat) (s : State) : State := logEvent memPage 3 (addrCapture a who) s

/-- The first address of a unified range that lies in an unallocated page. -/
def firstUnalloc (s : State) (a n : Nat) : Option Nat :=
  ((rangePages a n).find? (fun p => !allocated s p)).map (fun p => max a (p * 0x200000))

/-- An access to a page by any requester: its age restarts (R250). -/
def touchPages (a n : Nat) (s : State) : State :=
  forAll (fun p s => modPage p (fun x => { x with touched := s.mig.ticks }) s) (rangePages a n) s

/-! ### Faults (R240 to R242) -/

/-- A Meridian-side access to a tile faults. -/
def faults (s : State) (isWrite : Bool) (t : Nat) : Bool :=
  allocated s (t / 512) && (match condOf s t with
    | .zero => isWrite
    | .low => true
    | .clean => false
    | .dirty => false)

/-- A fault begins: an operation in progress on the page ends first, the page takes a frame if it holds none, and the tile
waits to be served. -/
def startFault (t : Nat) (isWrite : Bool) (who : Nat) (s : State) : State :=
  let s := quiesce (t / 512) s
  if faults s isWrite t then
    let s := takeFrame (t / 512) s
    let w := s.mig.faults.any (fun f => f.1 == t)
    if w then
      let join := fun (f : Nat × Bool × Nat) => if f.1 = t then (f.1, f.2.1 || isWrite, f.2.2) else f
      modMig (fun m => { m with faults := m.faults.map join }) s
    else modMig (fun m => { m with faults := m.faults ++ [(t, isWrite, who)] }) s
  else s

/-- A fault can be served: its page holds a frame, or one can be had (R251). -/
def servable (s : State) (t : Nat) : Bool :=
  ((s.mpage (t / 512)).bind (·.frame)).isSome || (freeFrame s).isSome || (candidate s (fun _ => true)).isSome

/-- The fault served next: the oldest that can be (R245). -/
def nextFault (s : State) : Option (Nat × Bool × Nat) := s.mig.faults.find? (fun f => servable s f.1)

/-- The fetch or zero-fill of the oldest fault's tile ends: every access that waits on it can be served (R241), and the page's
other LOW tiles are then fetched in the background (R242). -/
def endFault (t : Nat) (s : State) : State :=
  match (nextFault s).filter (fun f => f.1 == t) with
  | none => s
  | some f =>
    if !hbmRuns s then startMeridian s
    else
    let p := t / 512
    let s := takeFrame p s
    if ((s.mpage p).bind (·.frame)).isNone then s
    else
      let s := modMig (fun m => { m with faults := m.faults.filter (fun f => f.1 != t) }) s
      let s := bumpPair memPage 0x180 1 s
      let s := match condOf s t with
        | .low => fetchTile t s
        | .zero => if f.2.1 then setCond t .dirty s else s
        | .clean => s
        | .dirty => s
      if (tilesIn s p .low).isEmpty then s
      else modPage p (fun x => { x with moving := if x.moving = 0 then 1 else x.moving }) s

/-- The next LOW tile of a page fetched in the background, behind every faulted tile of the page (R242). -/
def fetchNext (p : Nat) (s : State) : State :=
  match s.mpage p with
  | none => s
  | some x =>
    if x.moving = 1 ∧ !hbmRuns s then startMeridian s
    else if x.moving = 1 ∧ x.frame.isSome ∧ s.mig.faults.all (fun f => decide (f.1 / 512 ≠ p)) then
      let s := match tilesIn s p .low with
        | [] => s
        | t :: _ => fetchTile t s
      if (tilesIn s p .low).isEmpty then modPage p (fun x => { x with moving := 0 }) s else s
    else s

/-! ### Waiting for tiles (R241) -/

/-- A tile whose fetch or zero-fill is queued or in progress. -/
def pendingTile (s : State) (t : Nat) : Bool := s.mig.faults.any (fun f => f.1 == t)

/-- The tiles of a range on which a Meridian-side access waits: those that fault, and those being made ready. -/
def unready (s : State) (isWrite : Bool) (a n : Nat) : List Nat :=
  if n = 0 ∨ winOf a ≠ .unified then [] else (rangeTiles a n).filter (fun t => faults s isWrite t || pendingTile s t)

/-- What is in progress on the pages of a unified range ends before an access to it is judged: a demotion, or a write-back of
its tiles (R241, R243). -/
def settleRange (a n : Nat) (s : State) : State := if winOf a = .unified then forAll quiesce (rangePages a n) s else s

/-- An access waits for tiles, behind those that reached the migration engine before it; one that waits already keeps its
place. -/
def addWaiter (w : WaitFor) (tiles : List Nat) (s : State) : State :=
  let x : Waiter := { what := w, tiles := tiles }
  modMig (fun m =>
    { m with waiters :=
        if m.waiters.any (fun y => y.what == w) then m.waiters.map (fun y => if y.what == w then x else y)
        else m.waiters ++ [x] }) s

/-- An access waits no more. -/
def dropWaiter (w : WaitFor) (s : State) : State :=
  modMig (fun m => { m with waiters := m.waiters.filter (fun x => x.what != w) }) s

/-- Two accesses that are performed in the order of their arrival: messages of one flow (R369), and writes of the home. -/
def sameFlow (a b : WaitFor) : Bool :=
  match a, b with
  | .msg m, .msg n => m.src == n.src && m.vc == n.vc && m.flow == n.flow
  | .home _ _ _, .home _ _ _ => true
  | _, _ => false

/-- An access that reached the engine before another one waits on a tile of it, or precedes it in its flow (R241, R369). -/
def waitersBefore (s : State) (w : WaitFor) (tiles : List Nat) : Bool :=
  (s.mig.waiters.takeWhile (fun x => x.what != w)).any (fun x =>
    stillWaits s x && (x.tiles.any (fun t => tiles.contains t) || sameFlow x.what w))

/-- No access that reached the engine before this waiter waits on a tile of it. -/
def firstWaits (s : State) (w : WaitFor) : Bool :=
  !waitersBefore s w (((s.mig.waiters.find? (fun x => x.what == w)).map (·.tiles)).getD [])

/-- An access that waits came to one of the tiles before. -/
def waitsBehind (s : State) (tiles : List Nat) : Bool :=
  s.mig.waiters.any (fun w => stillWaits s w && w.tiles.any (fun t => tiles.contains t))

/-- A Gnomon-side access must wait for Meridian: it meets a tile in HBM, or a page that is being moved, and Meridian is not in
RUN (R471). -/
def waitsMeridian (s : State) (a n : Nat) : Bool :=
  !hbmRuns s && ((rangeTiles a n).any (fun t => condOf s t == .clean || condOf s t == .dirty) ||
    (rangePages a n).any (fun p => decide (2 ≤ ((s.mpage p).map (·.moving)).getD 0)))

/-- A Gnomon-side access to a range waits: for Meridian, for a tile of it that is being made ready, or behind an access that
waits on one (R241). -/
def gnomonWaits (s : State) (a n : Nat) : Bool :=
  waitsMeridian s a n || (rangeTiles a n).any (pendingTile s) || waitsBehind s (rangeTiles a n)

/-- The same of an access that has a place of its own among those that wait. -/
def placedWaits (s : State) (w : WaitFor) (a n : Nat) : Bool :=
  waitsMeridian s a n || (rangeTiles a n).any (pendingTile s) || waitersBefore s w (rangeTiles a n)

/-- A Gnomon-side access that must wait for Meridian starts it (R471). -/
def wakeHbm (a n : Nat) (s : State) : State := if waitsMeridian s a n then startMeridian s else s

/-- The migration engine moves tiles of HBM: at once while Meridian runs, else it starts Meridian and waits (R471). -/
def withHbm (act : State → State) (s : State) : State := if hbmRuns s then act s else startMeridian s

/-! ### Bytes -/

/-- The range divided at page boundaries: addresses and lengths. -/
def pageChunks (a n : Nat) : List (Nat × Nat) :=
  (rangePages a n).map fun p =>
    let lo := max a (p * 0x200000)
    (lo, min (a + n) ((p + 1) * 0x200000) - lo)

/-- Written tiles in HBM become DIRTY (R238). -/
def dirtyTiles (a n : Nat) (s : State) : State :=
  forAll (fun t s => if condOf s t = .clean then setCond t .dirty s else s) (rangeTiles a n) s

/-- Bytes stored in unified memory, those of unallocated pages discarded (R237). -/
def storeUnified (bad : Bool) (a : Nat) (bs : List Byte) (s : State) : State :=
  forAll (fun (x : Nat × Nat) s =>
    if allocated s (pageOf x.1) then writeMarked bad x.1 ((bs.drop (x.1 - a)).take x.2) s else s) (pageChunks a bs.length) s

/-- A Meridian-side write of ready unified memory. -/
def writeReady (bad : Bool) (a : Nat) (bs : List Byte) (s : State) : State :=
  storeUnified bad a bs (dirtyTiles a bs.length (touchPages a bs.length s))

/-- A Gnomon-side write changes a tile's condition and LP5X copy (R240): a ZERO tile becomes LOW in an extent, a LOW one is
re-encoded, one in HBM becomes DIRTY. The count of a re-encoded tile is the model's reading (DEDUCED, log entry 20). -/
def gnomonTile (t : Nat) (s : State) : State :=
  if !allocated s (t / 512) then s
  else
    match condOf s t with
    | .clean => setCond t .dirty s
    | .dirty => s
    | .zero =>
      if tileZero s t && !tilePoisoned s t then s
      else countWritten t (setCond t .low (acquireExtent (t / 512) s))
    | .low => if tileZero s t && !tilePoisoned s t then setCond t .zero s
      else countWritten t (acquireExtent (t / 512) s)

/-- A Gnomon-side store of n bytes that waits for nothing (R240), made before the tiles are encoded. -/
def gnomonStore (a n who : Nat) (store : State → State) (s : State) : State :=
  let s := match firstUnalloc s a n with
    | some u => logUnalloc u who s
    | none => s
  let s := forAll quiesce (rangePages a n) s
  forAll gnomonTile (rangeTiles a n) (store (touchPages a n s))

/-- A Gnomon-side write. -/
def gnomonWrite (bad : Bool) (a : Nat) (bs : List Byte) (who : Nat) (s : State) : State :=
  gnomonStore a bs.length who (storeUnified bad a bs) s

/-- Pieces that lie one behind the other, each poisoned or clean, as one Gnomon-side write: a line that clean pieces cover whole
loses its mark, and a line of a poisoned piece has one (R411). -/
def gnomonPieces (a : Nat) (ps : List (Bool × List Byte)) (who : Nat) (s : State) : State :=
  let bs := ps.flatMap (·.2)
  let mark := fun (s : State) => (ps.foldl (fun (x : Nat × State) p =>
    (x.1 + p.2.length, if p.1 && allocated s (pageOf x.1) then poisonRange x.1 p.2.length x.2 else x.2)) (a, s)).2
  gnomonStore a bs.length who (fun s => mark (storeUnified false a bs s)) s

/-- A Gnomon-side read: its effects; the bytes are those of memory (R239), zero where nothing is allocated. -/
def gnomonRead (a n who : Nat) (s : State) : State :=
  let s := match firstUnalloc s a n with
    | some u => logUnalloc u who s
    | none => s
  touchPages a n (forAll quiesce (rangePages a n) s)

/-- A write of the home's tables, at once or, when it must wait, in its place (R241, R471). -/
def homeStore (w : WaitFor) (a : Nat) (bs : List Byte) (s : State) : State :=
  if placedWaits s w a bs.length then addWaiter w (rangeTiles a bs.length) (wakeHbm a bs.length s)
  else gnomonWrite false a bs whoGnomon (dropWaiter w s)

/-- The number of the next write of the home's tables that waits. -/
def homeNumber (s : State) : Nat :=
  s.mig.waiters.foldl (fun n x => match x.what with
    | .home k _ _ => max n (k + 1)
    | .chan _ => n
    | .msg _ => n
    | .rop _ _ _ _ _ => n
    | .window _ => n) 0

/-- A write of the home's tables that waited, again. -/
def serveHome (w : WaitFor) (s : State) : State :=
  match w with
  | .home _ a bs => homeStore w a bs s
  | .chan _ => s
  | .msg _ => s
  | .rop _ _ _ _ _ => s
  | .window _ => s

/-- Whether a waiter is a write of the home's tables. -/
def Waiter.isHome (x : Waiter) : Bool :=
  match x.what with
  | .home _ _ _ => true
  | .chan _ => false
  | .msg _ => false
  | .rop _ _ _ _ _ => false
  | .window _ => false

/-! ### Allocation (R237, R259) -/

/-- A page allocated with every tile in ZERO. -/
def allocPage (ctx place : Nat) (p : Nat) (s : State) : State :=
  let x : MPage :=
    { ctx := ctx, frame := none, extent := none, pinned := false, wantsFrame := false, place := place,
      touched := s.mig.ticks, moving := 0 }
  modMig (fun m => { m with pages := mset m.pages p x }) s

/-- A page becomes unallocated: its bytes read zero from then on (R237, R238). -/
def freePage (p : Nat) (s : State) : State :=
  let s := modMig (fun m =>
    { m with
      pages := mdel m.pages p
      tiles := m.tiles.filter (fun x => decide (x.1 / 512 ≠ p)) }) s
  { s with
    mem := s.mem.filter (fun x => decide (x.1 / 0x200000 ≠ p))
    poison := s.poison.filter (fun l => decide (l / 32768 ≠ p)) }

/-- A page is pinned: it takes a frame, its LOW tiles are fetched, and it stays (R252). Without a frame it waits, unpinned. -/
def pinPage (p : Nat) (s : State) : State :=
  let s := takeFrame p (quiesce p s)
  if ((s.mpage p).bind (·.frame)).isSome then modPage p (fun x => { x with pinned := true }) (fetchAll p s) else s

/-- A page allocated pinned, which takes a frame or waits for one (R252), as it does until Meridian runs (R470, R483). -/
def allocPinned (p : Nat) (s : State) : State :=
  let s := takeFrame p s
  modPage p (fun x => { x with pinned := true, wantsFrame := x.frame.isNone }) s

/-- A context's quota state is judged after its quota, pins or pages changed (R253): use above the effective quota logs OVERQ,
and a non-zero floor QFLOOR; of events of one cycle the lowest bit comes first (R496). -/
def judgeQuota (ctx : Nat) (s : State) : State :=
  let s := if overQuota s ctx then logOverq ctx s else s
  if 0 < quotaFloor s ctx then logEvent memPage 2 [ctx, quotaFloor s ctx] s else s

/-! ### Retirement (R258) -/

/-- The HBM stack that holds tile t of unified memory in frame f (R236). -/
def stackOf (t f : Nat) : Fin 8 := Fin.ofNat 8 (t % 512 + f)

/-- The pool falls by one page with a unit out of service; with no unallocated page left the reserve absorbs it. -/
def absorbLoss (s : State) : State :=
  if poolOf s < s.mig.pages.length then modMig (fun m => { m with reserveUsed := min 256 (m.reserveUsed + 1) }) s else s

/-- RETIRE, and the logbook entry of kind 0x04 that records it, with the unit and the local address (R258, R416). -/
def logRetire (n : Nat) (extent : Bool) (index a : Nat) (s : State) : State :=
  queueRetire (if extent then 2 else 1) index a n (logEvent memPage 5 [n + (if extent then 2 ^ 31 else 0)] s)

/-- Frame f leaves service: the page that holds it moves to a free or evicted frame; a pinned page with neither is demoted
and waits for one (PINLOST); another is demoted. -/
def retireFrame (f index a : Nat) (s : State) : State :=
  if s.mig.badFrames.contains f then s
  else
    let s := modMig (fun m => { m with badFrames := kins m.badFrames f }) s
    let s := match s.mig.pages.find? (fun x => x.2.frame == some f) with
      | none => s
      | some (p, x) =>
        let s := modPage p (fun x => { x with frame := none }) s
        let s := makeFrame s
        match freeFrame s with
        | some g => modPage p (fun x => { x with frame := some g, touched := s.mig.ticks }) s
        | none =>
          let s := demotePage p s
          if x.pinned then logEvent memPage 6 [p] (modPage p (fun x => { x with wantsFrame := true }) s) else s
    logRetire f false index a (absorbLoss s)

/-- Extent e leaves service: the page that holds it moves to another one. -/
def retireExtent (e index a : Nat) (s : State) : State :=
  if s.mig.badExtents.contains e then s
  else
    let s := modMig (fun m => { m with badExtents := kins m.badExtents e }) s
    let s := match s.mig.pages.find? (fun x => x.2.extent == some e) with
      | none => s
      | some (p, _) => acquireExtent p (modPage p (fun x => { x with extent := none }) s)
    logRetire e true index a (absorbLoss s)

end Sys2Proof.Machine
end

