-- ==== Sys2Proof/Machine/RegOps.lean ====
section
/-! DEFINITION. Register writes that their block's rules skip (R504, R506), and the selectors that a requester has of its own
(R92). -/
namespace Sys2Proof.Machine

/-- An event of the register-access page (R506): the page, a function's page as 0xFFF, the offset, the kind of access, the
requester and the value. -/
def logRac (flag page off : Nat) (wr wide : Bool) (r : Req) (v : Nat) (s : State) : State :=
  let pg := if 0x1000 ≤ page then 0xFFF else page
  logEvent 0 flag
    [pg + off * 2 ^ 12 + (if wr then 2 ^ 24 else 0) + (if wide then 2 ^ 25 else 0), reqErr r, if wr then v % 2 ^ 32 else 0] s

/-- FIELDSKIP of a 32-bit write (R504 check 6). -/
def logFieldskip (page off : Nat) (r : Req) (v : Nat) (s : State) : State := logRac 5 page off true false r v s

/-- A register word of the requester's own (R92). -/
def ownWord (s : State) (r : Req) (page off : Nat) : Nat := rawWord s (reqBank r) page off

/-! ### Storing words -/

/-- A word with the bits of a mask taken from v. -/
def putMask (old mask v : Nat) : Nat := Nat.lor (Nat.land old (Nat.xor mask 0xFFFFFFFF)) (Nat.land v mask)

/-- The fields of a register word that a write changes: RW, and RWL while EN is clear (R14). -/
def writable (s : State) (page : Nat) (fs : List Fld) : Nat :=
  maskOf (fun a => a == .rw || (a == .rwl && !pageEn s page)) fs

/-- A write stored into the fields that take it. -/
def storeWord (bank page off v : Nat) (s : State) : State :=
  setWord bank page off (putMask (rawWord s bank page off) (writable s page (regAt page off).2) v) s

/-- A 32-bit write of a word (R12): the low word of a pair is held for its requester, the high one commits both. -/
def storeHalf (r : Req) (bank page off v : Nat) (s : State) : State :=
  let k := (regAt page off).1
  if k = 1 then { s with heldLow := mset s.heldLow (rkey (reqBank r) page off) (BitVec.ofNat 32 v) }
  else if k = 2 then
    let key := rkey (reqBank r) page (off - 4)
    let s := storeWord bank page off v s
    match mfind s.heldLow key with
    | some w => storeWord bank page (off - 4) w.toNat { s with heldLow := mdel s.heldLow key }
    | none => s
  else storeWord bank page off v s

end Sys2Proof.Machine
end

