-- ==== Sys2Proof/Machine/HostOps.lean ====
section
/-! DEFINITION. The host interface (R425 to R442): a port's memory window with the accesses it holds, doorbells, watches,
features, the assignment of contexts, and resets of functions. -/
namespace Sys2Proof.Machine

/-- The host page, and the context page. -/
def hostPage : Nat := 0x004

/-- A port, and every function of one. -/
def State.host (s : State) (p : Fin 2) : HPort := s.hosts.get p
def allFuncs : List (Fin 65) := List.finRange 65

/-- An event of the host page that names a function (R442): further bits of the first word, and the second. -/
def logHost (flag : Nat) (p : Fin 2) (f : Fin 65) (more w1 : Nat) (s : State) : State :=
  logEvent hostPage flag [p.val + f.val * 2 + more, w1] s

/-- HIFSKIP with its cause, for the function of a requester; Vesper's shows zeros. -/
def logHifskip (cause : Nat) (r : Req) (s : State) : State :=
  match r with
  | .func p f => logHost 1 p f (cause * 2 ^ 8) 0 s
  | .core _ => logEvent hostPage 1 [cause * 2 ^ 8] s
  | .vesper => logEvent hostPage 1 [cause * 2 ^ 8] s

/-- HOSTDENY for a control-window offset. -/
def logHostdeny (p : Fin 2) (f : Fin 65) (x : Nat) (s : State) : State := logHost 0 p f 0 x s

/-- A word of a function's own page, and of an entry behind one of its selectors (R440). -/
def funcWord (s : State) (p : Fin 2) (f : Fin 65) (off : Nat) : Nat := rawWord s 0 (funcPage p f) off
def funcEntry (s : State) (p : Fin 2) (f : Fin 65) (n off : Nat) : Nat := rawWord s (entryBank n) (funcPage p f) off

/-- The port's bit of HIF_ADMIN is set (R432). -/
def portAdmin (s : State) (p : Fin 2) : Bool := bitOf (rawWord s 0 hostPage 0x108) p.val

/-! ### Functions (R425, R428) -/

/-- A function exists: the physical one, or a virtual one that VF Enable and NumVFs enable. -/
def fnLive (s : State) (p : Fin 2) (f : Fin 65) : Bool := decide (f.val ≤ (s.host p).numVf)

/-- The size of a function's memory window (R428). -/
def windowSize (s : State) (p : Fin 2) (f : Fin 65) : Nat :=
  2 ^ (if f.val = 0 then (s.host p).barLog else (s.host p).vfBarLog)

/-- A request that no window of the port takes: a non-posted one completes as an unsupported request, a posted write ends there
(PRESUMED, log entry 106). -/
def unsupported (p : Fin 2) (f : Fin 65) (posted : Bool) (s : State) : State :=
  if posted then s else { s with out := s.out ++ [.unsupported p.val f.val] }

/-- A function's configuration is changed. -/
def modCfg (p : Fin 2) (f : Fin 65) (g : FnCfg → FnCfg) (s : State) : State :=
  modHost p (fun h => { h with cfgs := mmod FnCfg.reset h.cfgs f.val g }) s

/-- The link of a port is in L1: software has put the physical function into a low-power state (R425). -/
def inL1 (s : State) (p : Fin 2) : Bool := (s.host p).trained && (fnCfg s p 0).powerState != 0

/-! ### The memory window (R427, R430, R431) -/

/-- HIF_MWBASE of a function. -/
def mwBase (s : State) (p : Fin 2) (f : Fin 65) : Nat := bitsOf (rawPair s 0 (funcPage p f) 0x148) 43 21 * 2 ^ 21

/-- The part of a window access that lies in unified memory: its length; the rest is reserved (R430). -/
def inUnified (a n : Nat) : Nat := min n (0x30000000000 - a)

/-- The first memory-window access of a port must wait: for Meridian, or for a tile that is being made ready or that an earlier
access waits for (R241, R431). -/
def accessWaits (s : State) (p : Fin 2) (w : WinAccess) : Bool := placedWaits s (.window p.val) w.addr (inUnified w.addr w.len)

/-- It waits in its place at the migration engine, and for Meridian, which it starts (R431). -/
def waitAccess (p : Fin 2) (w : WinAccess) (s : State) : State :=
  let n := inUnified w.addr w.len
  addWaiter (.window p.val) (rangeTiles w.addr n) (wakeHbm w.addr n s)

/-- A posted write of a port waits: the accesses that come after it are held behind it (R427). -/
def heldWrites (s : State) (p : Fin 2) : Bool := (s.host p).windowQ.any (·.data.isSome)

/-- An access of a port joins those that are held. -/
def holdAccess (p : Fin 2) (w : WinAccess) (s : State) : State := modHost p (fun h => { h with windowQ := h.windowQ ++ [w] }) s

/-- An access of a function's control window: its offset, whether it is 64 bits wide, and the value that it writes. -/
def ctlAccess (f : Fin 65) (x : Nat) (wide : Bool) (v : Option Nat) (now : Nat) : WinAccess :=
  { fn := f.val, off := x, addr := 0, len := if wide then 8 else 4, data := v.map (bytesOfNat 8), poison := false,
    ctl := some wide, arrived := now }

/-- A window access is performed: a write in its place, a read with its data and the poisoned attribute. -/
def performAccess (p : Fin 2) (w : WinAccess) (s : State) : State :=
  let n := inUnified w.addr w.len
  let s := if n < w.len then logUnmapped w.addr (whoReq (.func p 0)) s else s
  match w.data with
  | some bs => if n = 0 then s else gnomonWrite w.poison w.addr (bs.take n) (whoReq (.func p 0)) s
  | none =>
    let s := if n = 0 then s else gnomonRead w.addr n (whoReq (.func p 0)) s
    let bs := memGetAll s.mem w.addr n ++ List.replicate (w.len - n) 0
    { s with out := s.out ++ [.readDone p w.fn bs (poisoned s w.addr n)] }

/-- A held write has become visible: waiting doorbell adds count one write fewer ahead of them. -/
def writeSeen (p : Fin 2) (s : State) : State :=
  modHost p (fun h => { h with doorbells := h.doorbells.map (fun d => (d.1, d.2.1, d.2.2 - 1)) }) s

/-- A memory-window access arrives: performed at once, or held behind earlier ones, for its tiles and for Meridian (R431).
(DEDUCED, log entry 58.) -/
def takeAccess (p : Fin 2) (w : WinAccess) (s : State) : State :=
  if (s.host p).windowQ = [] then
    if accessWaits s p w then holdAccess p w (waitAccess p w s) else performAccess p w s
  else holdAccess p w (wakeHbm w.addr (inUnified w.addr w.len) s)

/-- A memory-window access of a function that exists and within its window (R428). -/
def windowAccess (p : Fin 2) (f : Fin 65) (w : WinAccess) (s : State) : State :=
  if fnLive s p f && decide (w.off + w.len ≤ windowSize s p f) then takeAccess p w s else unsupported p f w.data.isSome s

/-! ### Doorbells and watches (R434, R435) -/

/-- A function may name an object: a virtual function only one in its granted range. -/
def objGranted (s : State) (p : Fin 2) (f : Fin 65) (o : Nat) : Bool :=
  f.val == 0 ||
    (let base := bitsOf (funcEntry s p 0 f.val 0x194) 16 0
     decide (base ≤ o ∧ o < base + bitsOf (funcEntry s p 0 f.val 0x198) 17 0))

/-- A write to a doorbell (R434, R437): with the feature off it is discarded, under FIELDSKIP (R504 check 6). -/
def ringDoorbell (p : Fin 2) (f : Fin 65) (d : Nat) (v : W64) (s : State) : State :=
  if !featureOn s p f 0 then logRac 5 (funcPage p f) (0x800 + 8 * d) true true (.func p f) v.toNat s
  else
    let w := funcEntry s p f d 0x164
    if bitOf w 31 then
      modHost p (fun h =>
        { h with doorbells := h.doorbells ++ [(bitsOf w 16 0, v, h.windowQ.countP (fun x => x.data.isSome))] }) s
    else logHifskip 2 (.func p f) s

/-- The first doorbell add whose earlier writes are visible takes effect. -/
def applyDoorbell (p : Fin 2) (s : State) : State :=
  match (s.host p).doorbells with
  | [] => s
  | (o, v, k) :: t => if k = 0 then objAdd o v (modHost p (fun h => { h with doorbells := t }) s) else s

/-- A doorbell's binding is written. -/
def writeDbobj (p : Fin 2) (f : Fin 65) (v : Nat) (s : State) : State :=
  if bitOf v 31 && !objGranted s p f (bitsOf v 16 0) then logHifskip 3 (.func p f) s
  else storeWord (entryBank (bitsOf (funcWord s p f 0x160) 7 0)) (funcPage p f) 0x164 v s

/-- How many watches a function has, and the entries of its MSI-X table (R429, R435). -/
def watchCount (f : Fin 65) : Nat := if f.val = 0 then 1024 else 64
def msixCount (f : Fin 65) : Nat := if f.val = 0 then 2048 else 64

/-- The watch a function selects. -/
def watchSel (s : State) (p : Fin 2) (f : Fin 65) : Nat := bitsOf (funcWord s p f 0x170) 9 0

/-- A watch's configuration is written. (DEDUCED, log entry 62.) -/
def writeWcfg (p : Fin 2) (f : Fin 65) (v : Nat) (s : State) : State :=
  if watchCount f ≤ watchSel s p f then logFieldskip (funcPage p f) 0x174 (.func p f) v s
  else if !objGranted s p f (bitsOf v 16 0) then logHifskip 3 (.func p f) s
  else if msixCount f ≤ bitsOf v 28 18 then logHifskip 4 (.func p f) s
  else storeWord (entryBank (watchSel s p f)) (funcPage p f) 0x174 v s

/-- A watch fires when it is enabled and its object has reached THR. -/
def fireWatch (p : Fin 2) (f : Fin 65) (w : Nat) (s : State) : State :=
  let cfg := funcEntry s p f w 0x174
  let thr := rawPair s (entryBank w) (funcPage p f) 0x178
  let step := funcEntry s p f w 0x180
  if w < watchCount f ∧ featureOn s p f 1 ∧ bitOf cfg 31 ∧ thr ≤ (objGet s (bitsOf cfg 16 0)).toNat then
    let s := signalVector p f (bitsOf cfg 28 18) s
    if step = 0 then setWord (entryBank w) (funcPage p f) 0x174 (putBits cfg 31 31 0) s
    else setPair (entryBank w) (funcPage p f) 0x178 ((thr + step) % 2 ^ 64) s
  else s

/-- A function may send a message: it exists and its Bus Master Enable is set (R426). -/
def maySend (s : State) (p : Fin 2) (f : Fin 65) : Bool := fnLive s p f && (fnCfg s p f).busMaster

/-- A vector that is signalled or pending, and not masked, is written to the host (R436); while Bus Master Enable is clear it
stays pending (R426; PRESUMED, log entry 10). -/
def writeVector (p : Fin 2) (f : Fin 65) (vec : Nat) (s : State) : State :=
  let k := f.val * 2048 + vec
  let h := s.host p
  if (h.msixPending.contains k || h.msixSignalled.contains k) && !msixMasked s p f vec && maySend s p f then
    let s := modHost p (fun h => { h with msixPending := kdel h.msixPending k, msixSignalled := kdel h.msixSignalled k }) s
    let a := msixWord s p f vec 0 + 2 ^ 32 * msixWord s p f vec 4
    { s with out := s.out ++ [.msix p f.val vec a (BitVec.ofNat 32 (msixWord s p f vec 8))] }
  else
    if h.msixSignalled.contains k then
      modHost p (fun h => { h with msixSignalled := kdel h.msixSignalled k, msixPending := kins h.msixPending k }) s
    else s

/-! ### Features (R437) -/

/-- Every accepted feature is offered. -/
def acceptable (s : State) (p : Fin 2) (f : Fin 65) : Bool :=
  (List.range 8).all fun k =>
    Nat.land (funcWord s p f (0x120 + 4 * k)) (funcWord s p f (0x100 + 4 * k)) == funcWord s p f (0x120 + 4 * k)

/-- FEATOK is written 1. -/
def acceptFeatures (p : Fin 2) (f : Fin 65) (s : State) : State :=
  if bitOf (funcWord s p f 0x140) 0 then s
  else if acceptable s p f then setWord 0 (funcPage p f) 0x140 1 s
  else logHost 4 p f 0 0 (setWord 0 (funcPage p f) 0x140 2 s)

/-- FEATOK is written 0. -/
def withdrawFeatures (p : Fin 2) (f : Fin 65) (s : State) : State :=
  if bitOf (funcWord s p f 0x140) 0 then
    setField 0 (funcPage p f) 0x184 31 31 0 (setPair 0 (funcPage p f) 0x148 0 (setWord 0 (funcPage p f) 0x140 0 s))
  else s

/-- HIF_MWBASE is written: MWMOVE must be in force. -/
def writeMwbase (p : Fin 2) (f : Fin 65) (v : Nat) (s : State) : State :=
  if featureOn s p f 4 then setPair 0 (funcPage p f) 0x148 (bitsOf v 43 21 * 2 ^ 21) s
  else logHostdeny p f 0xFF0148 s

/-! ### Contexts (R433) -/

/-- The range of contexts that a requester has selected; none where it is not 1 to 16,384 contexts within the 16,384. -/
def ctxRange (s : State) (r : Req) : Option (List Nat) :=
  let first := bitsOf (ownWord s r hostPage 0x110) 13 0
  let n := bitsOf (ownWord s r hostPage 0x114) 14 0
  if 0 < n ∧ first + n ≤ 16384 then some ((List.range n).map (first + ·)) else none

/-- A context may change its owner: no slot of it is armed, and it is disabled. -/
def ctxFree (s : State) (ctx : Nat) : Bool :=
  armedCount s ctx == 0 && fieldOf s (entryBank ctx) 0x009 0x104 0 0 == 0

/-- Vesper, or a physical function whose port has its HIF_ADMIN bit. -/
def mayAdmin (s : State) (r : Req) : Bool :=
  match r with
  | .vesper => true
  | .func p f => f.val == 0 && portAdmin s p
  | .core _ => false

/-- The assignment is a move of a context between the port's physical function and its virtual ones. -/
def isMove (s : State) (r : Req) (port : Fin 2) (fn : Fin 65) (ctx : Nat) : Bool :=
  let w := ctxOwner s ctx
  match r with
  | .func p f =>
    f.val == 0 && port == p && bitOf w 8 && bitsOf w 0 0 == p.val && (if fn.val = 0 then true else bitsOf w 7 1 == 0)
  | .core _ => false
  | .vesper => false

/-- VFCTX is in force for a requester's port (R437). -/
def vfctxOn (s : State) (r : Req) : Bool :=
  match r with
  | .func p _ => featureOn s p 0 3
  | .core _ => false
  | .vesper => false

/-- A requester may assign a context to a function: unassigned ones to a physical function, or a move with VFCTX in force. -/
def mayAssign (s : State) (r : Req) (port : Fin 2) (fn : Fin 65) (ctx : Nat) : Bool :=
  (mayAdmin s r && !bitOf (ctxOwner s ctx) 8 && fn.val == 0) || (isMove s r port fn ctx && vfctxOn s r)

/-- The range holds a move and VFCTX is off: the write needs a feature that is off (R437). (DEDUCED, log entry 60.) -/
def moveBarred (s : State) (r : Req) (port : Fin 2) (fn : Fin 65) (cs : List Nat) : Bool :=
  !vfctxOn s r && cs.any (isMove s r port fn)

/-- HOSTDENY for HIF_CTXASSIGN, by a function. -/
def denyAssign (r : Req) (s : State) : State :=
  match r with
  | .func p f => logHostdeny p f 0x4118 s
  | .core _ => s
  | .vesper => s

/-- A context's owner is set. -/
def setOwner (w ctx : Nat) (s : State) : State := setWord (entryBank ctx) 0x009 0x108 w s

/-- HIF_CTXASSIGN without UNASSIGN. -/
def assignCtx (r : Req) (port : Fin 2) (fn : Fin 65) (s : State) : State :=
  match ctxRange s r with
  | none => logHifskip 1 r s
  | some cs =>
    if moveBarred s r port fn cs then denyAssign r s
    else if cs.all (fun c => ctxFree s c && mayAssign s r port fn c) then
      forAll (setOwner (port.val + fn.val * 2 + 2 ^ 8)) cs s
    else logHifskip 1 r s

/-- HIF_CTXASSIGN with UNASSIGN. -/
def unassignCtx (r : Req) (s : State) : State :=
  match ctxRange s r with
  | none => logHifskip 1 r s
  | some cs => if mayAdmin s r && cs.all (ctxFree s) then forAll (setOwner 0) cs s else logHifskip 1 r s

/-- HIF_ADMIN is written (R441): LOCKED while the host page is enabled, FIELDSKIP from any requester but Vesper. -/
def writeAdmin (r : Req) (v : Nat) (s : State) : State :=
  if pageEn s hostPage then logRac 3 hostPage 0x108 true false r v s
  else if r = .vesper then storeWord 0 hostPage 0x108 v s
  else logFieldskip hostPage 0x108 r v s

/-! ### Resets (R438) -/

/-- The contexts of a function. -/
def contextsOf (s : State) (p : Fin 2) (f : Fin 65) : List Nat :=
  (entriesWith s 0x009 0x108).filter (fun c => ownsCtx s p f c)

/-- The words of a page at some offsets, of every bank, return to Reset. -/
def clearWords (page : Nat) (offs : List Nat) (s : State) : State :=
  let hit := fun (k : Nat) => k / 1024 % 16384 == page && offs.contains (k % 1024 * 4) && k / 1024 / 16384 != cfgBank
  { s with regs := s.regs.filter (fun x => !hit x.1) }

/-- A detached transfer that was started by a function of some port. -/
def startedBy (p : Fin 2) (x : Xfer) : Bool :=
  match x.starter with
  | some (.func q _) => q == p
  | some (.core _) => false
  | some .vesper => false
  | none => false

/-- Detached transfers that the functions of a port started are aborted (R276). -/
def abortStarted (p : Fin 2) (s : State) : State :=
  forAll (fun (k : Fin 8) s => abortWhere (startedBy p) k s) [0, 1, 2, 3, 4, 5, 6, 7] s

/-- A function is reset: its contexts' tasks are cancelled, the contexts disabled and returned to the physical function, and
its bindings, watches, window base, negotiation and configuration cleared. (DEDUCED, log entry 61.) -/
def resetFunc (p : Fin 2) (f : Fin 65) (s : State) : State :=
  let s := modHost p (fun h => { h with cfgs := mdel h.cfgs f.val }) s
  let s := forAll (fun c s =>
    setOwner (p.val + 2 ^ 8) c (setField (entryBank c) 0x009 0x104 0 0 0 (cancelContext c s))) (contextsOf s p f) s
  clearWords (funcPage p f)
    ([0x140, 0x148, 0x14C, 0x164, 0x174, 0x178, 0x17C, 0x180, 0x184] ++ (List.range 8).map (fun k => 0x120 + 4 * k)) s

/-- Every function of a port is reset, and the transfers its functions started are aborted; by PCI Express such a reset clears
VF Enable, and the windows return to their sizes after reset (R428). -/
def resetPort (p : Fin 2) (s : State) : State :=
  modHost p (fun h => { h with numVf := 0, numVfs := 0, barLog := 36, vfBarLog := 32 })
    (abortStarted p (forAll (resetFunc p) allFuncs s))

/-- VF Enable is cleared: every virtual function of the port is reset (R438). -/
def clearVfs (p : Fin 2) (s : State) : State :=
  modHost p (fun h => { h with numVf := 0 }) (forAll (resetFunc p) allFuncs.tail s)

/-! ### Configuration space (R425, R428) -/

/-- What a function advertises, a bit each: ARI, function-level reset, AER, MSI-X; and the physical function alone Resizable BAR,
SR-IOV with VF Resizable BAR, and data object exchange (R425). -/
def capabilities (f : Fin 65) : Nat := if f.val = 0 then 0x7F else 0xF

/-- A register that only the physical function has. -/
def pfReg : CfgReg → Bool
  | .vfEnable | .numVfs | .barSize | .vfBarSize => true
  | .busMaster | .payload | .readRequest | .powerState | .msixEnable | .msixMask | .capabilities | .other _ => false

/-- The value of a configuration register, where the manual describes it. -/
def cfgValue (s : State) (p : Fin 2) (f : Fin 65) (reg : CfgReg) : Option Nat :=
  let c := fnCfg s p f
  let h := s.host p
  let flag := fun (b : Bool) => some (if b then 1 else 0)
  if pfReg reg && f.val != 0 then none
  else match reg with
    | .busMaster => flag c.busMaster
    | .payload => some c.payload
    | .readRequest => some c.readReq
    | .powerState => some c.powerState
    | .msixEnable => flag c.msixOn
    | .msixMask => flag c.msixMask
    | .vfEnable => flag (decide (0 < h.numVf))
    | .numVfs => some h.numVfs
    | .barSize => some h.barLog
    | .vfBarSize => some h.vfBarLog
    | .capabilities => some (capabilities f)
    | .other _ => none

/-- A configuration register is written: within what R425 and R428 support, else it keeps its value; so does what the manual does
not describe (DESIGN CHOICE, log entry 106). -/
def writeCfg (p : Fin 2) (f : Fin 65) (reg : CfgReg) (v : Nat) (s : State) : State :=
  let on := bitOf v 0
  let h := s.host p
  if pfReg reg && f.val != 0 then s
  else match reg with
    | .busMaster => modCfg p f (fun c => { c with busMaster := on }) s
    | .payload => if v ≤ 2 then modCfg p f (fun c => { c with payload := v }) s else s
    | .readRequest => if v ≤ 5 then modCfg p f (fun c => { c with readReq := v }) s else s
    | .powerState => modCfg p f (fun c => { c with powerState := v % 4 }) s
    | .msixEnable => modCfg p f (fun c => { c with msixOn := on }) s
    | .msixMask => modCfg p f (fun c => { c with msixMask := on }) s
    | .vfEnable =>
      if on then modHost p (fun h => { h with numVf := if h.numVf = 0 then h.numVfs else h.numVf }) s else clearVfs p s
    | .numVfs => if v ≤ 64 ∧ h.numVf = 0 then modHost p (fun h => { h with numVfs := v }) s else s
    | .barSize => if 30 ≤ v ∧ v ≤ 42 then modHost p (fun h => { h with barLog := v }) s else s
    | .vfBarSize => if 30 ≤ v ∧ v ≤ 36 then modHost p (fun h => { h with vfBarLog := v }) s else s
    | .capabilities => s
    | .other _ => s

/-- A configuration request (R449): no answer from a port whose link is down, retry status before READY, unsupported from a
function that does not exist; else a write's completion, or a read's value, a free one where it is PCI Express's to say. -/
def cfgRequest (p : Fin 2) (f : Fin 65) (reg : CfgReg) (write : Option W32) (s : State) : State :=
  if !(s.host p).trained then s
  else if s.vesper.booting ∨ s.vesper.stage < 8 then { s with out := s.out ++ [.config p f.val true 0] }
  else if !fnLive s p f then unsupported p f false s
  else match write with
    | some v => let s := writeCfg p f reg v.toNat s; { s with out := s.out ++ [.config p f.val false 0] }
    | none => match cfgValue s p f reg with
      | some v => { s with out := s.out ++ [.config p f.val false v] }
      | none => { useFree s with out := s.out ++ [.config p f.val false ((freeOf s).toNat % 2 ^ 32)] }

/-! ### Links (R425, R449, R514) -/

/-- A port trains when Gnomon is powered and the port is enabled, out of PERST# and has its reference clock; the rate, width and mode that the far end
admits are open, within the record's limit. (PRESUMED, log entry 59.) -/
def trainPort (p : Fin 2) (s : State) : State :=
  let h := s.host p
  if decide (2 ≤ s.power.modState) && h.enabled && !h.perst && h.refclk && !h.trained then
    let v := (freeOf s).toNat
    let lim := max 1 (min 6 (recordNat s 63 1 / 16 ^ p.val % 16))
    let rate := 1 + v % lim
    let flit := rate == 6 || bitOf v 32
    modHost p (fun h =>
      { h with trained := true, rate := rate, width := 2 ^ (v / 2 ^ 16 % 4), flitMode := flit }) (useFree s)
  else s

/-- A port's link goes down. -/
def dropLink (h : HPort) : HPort := { h with trained := false, rate := 0, width := 0, flitMode := false }

end Sys2Proof.Machine
end

