-- ==== Sys2Proof/Machine/FabricCodec.lean ====
section
/-! DEFINITION. Fabric messages as bytes: the envelope (R360), transaction headers (R365, R367), reduction headers (R313),
and the flits that carry them (R336). -/
namespace Sys2Proof.Machine

/-! ### Bodies -/

/-- A transaction header's 16 bytes (R365). -/
def hdrBytes (h : TxnHdr) : List Byte :=
  bytesOfNat 16 (h.ttype % 16 + h.status % 16 * 2 ^ 4 + h.tag % 2 ^ 17 * 2 ^ 8 + h.addr % 2 ^ 44 * 2 ^ 25 +
    h.lenm1 % 2 ^ 12 * 2 ^ 69 + h.aop % 16 * 2 ^ 81)

/-- A transaction header read from its bytes. -/
def hdrOf (bs : List Byte) : TxnHdr :=
  let w := natOfBytes (bs.take 16)
  { ttype := bitsOf w 3 0, status := bitsOf w 7 4, tag := bitsOf w 24 8, addr := bitsOf w 68 25, lenm1 := bitsOf w 80 69,
    aop := bitsOf w 84 81 }

/-- A sub-reply's bytes (R367). -/
def subBytes (ttype : Nat) (r : SubReply) : List Byte :=
  hdrBytes { ttype := ttype, status := r.status, tag := r.tag, addr := 0, lenm1 := r.lenm1, aop := 0 } ++ r.data

/-- Sub-replies read from bytes, at most n of them. -/
def subsOf (isRead : Bool) : Nat → List Byte → List SubReply
  | 0, _ => []
  | n + 1, bs =>
    if bs.length < 16 then []
    else
      let h := hdrOf bs
      let k := if isRead then h.lenm1 + 1 else 0
      { tag := h.tag, status := h.status, lenm1 := h.lenm1, data := (bs.drop 16).take k } ::
        subsOf isRead n (bs.drop (16 + k))

/-- A membership map's 2,048 bytes (R313). -/
def mapBytes (ms : List Nat) : List Byte :=
  (List.range 2048).map (fun i => BitVec.ofNat 8 (ms.foldl (fun b m => if m / 8 = i then b + 2 ^ (m % 8) else b) 0))

/-- The members of a map. -/
def mapOf (bs : List Byte) : List Nat :=
  bs.zipIdx.flatMap (fun x => if x.1 = 0 then [] else
    ((List.range 8).filter (fun i => x.1.getLsbD i)).map (fun i => 8 * x.2 + i))

/-- Elements as bytes, 4 each when wide, else 2. -/
def elemsBytes (wide : Bool) (xs : List Int) : List Byte :=
  xs.flatMap (fun x => if wide then bytesOfNat 4 (codeOf 32 x) else bytesOfNat 2 (codeOf 16 x))

/-- n elements read from bytes. -/
def elemsOf (wide : Bool) (n : Nat) (bs : List Byte) : List Int :=
  (List.range n).map fun i =>
    if wide then signedOf 32 (natOfBytes ((bs.drop (4 * i)).take 4)) else signedOf 16 (natOfBytes ((bs.drop (2 * i)).take 2))

/-- A reduction message's header, map and elements (R313). ELEMS counts every element that follows, a RETRACT's two lists
together. -/
def redBytes (r : RedMsg) : List Byte :=
  let n := r.wrong.length + r.elems.length
  let w := r.step % 2 ^ 64 + r.type % 16 * 2 ^ 64 + r.chan % 64 * 2 ^ 68 + r.bucket % 4096 * 2 ^ 74 +
    r.src % 16384 * 2 ^ 86 + r.home % 16384 * 2 ^ 100 + (if r.wide then 2 ^ 114 else 0) +
    (if r.map.isSome then 2 ^ 115 else 0) + r.cause % 16 * 2 ^ 116 + r.scale % 256 * 2 ^ 120 + r.epoch % 2 ^ 32 * 2 ^ 128 +
    codeOf 11 r.tmax * 2 ^ 160 + r.count % 32768 * 2 ^ 171 + n % 2 ^ 25 * 2 ^ 186
  let m := match r.map with
    | some ms => mapBytes ms
    | none => []
  bytesOfNat 32 w ++ m ++ elemsBytes false r.wrong ++ elemsBytes r.wide r.elems

/-- A reduction message read from its bytes. A RETRACT's two lists of LEN elements fill its payload: with the greatest LEN
their number does not fit ELEMS (R304, R313; DEDUCED, log entry 92). -/
def redOf (bs : List Byte) : RedMsg :=
  let w := natOfBytes (bs.take 32)
  let hasMap := bitOf w 115
  let rest := bs.drop (if hasMap then 2080 else 32)
  let type := bitsOf w 67 64
  let n := if type = 2 then rest.length / 2 else bitsOf w 210 186
  let half := if type = 2 then n / 2 else 0
  { step := bitsOf w 63 0, type := type, chan := bitsOf w 73 68, bucket := bitsOf w 85 74, src := bitsOf w 99 86,
    home := bitsOf w 113 100, wide := bitOf w 114, map := if hasMap then some (mapOf ((bs.drop 32).take 2048)) else none,
    cause := bitsOf w 119 116, scale := bitsOf w 127 120, epoch := bitsOf w 159 128, tmax := signedOf 11 (bitsOf w 170 160),
    count := bitsOf w 185 171, elems := elemsOf (bitOf w 114) (n - half) (rest.drop (2 * half)),
    wrong := elemsOf false half rest }

/-- The membership of a CONTRIB (R314): its map, or its SRC alone. -/
def redMembers (r : RedMsg) : List Nat := r.map.getD [r.src]

/-- A body's bytes. -/
def bodyBytes : Body → List Byte
  | .txn h d => hdrBytes h ++ d
  | .reply t rs => rs.flatMap (subBytes t)
  | .red r => redBytes r
  | .mgmt d => d
  | .other d => d

/-- A body read from the bytes after an envelope of KIND k. -/
def bodyOf (k : Nat) (bs : List Byte) : Body :=
  if k = 1 then
    let t := (hdrOf bs).ttype
    if t = 4 ∨ t = 5 then .reply t (subsOf (t == 4) (bs.length / 16) bs) else .txn (hdrOf bs) (bs.drop 16)
  else if k = 2 then .red (redOf bs)
  else if k = 3 then .mgmt bs
  else .other bs

/-- A message's payload: envelope and body (R360). -/
def payloadBytes (m : Msg) : List Byte :=
  bytesOfNat 8 (m.kind % 16 + m.sinc % 256 * 2 ^ 8 + m.fseq % 65536 * 2 ^ 16) ++ bodyBytes m.body

/-! ### Flits (R336) -/

/-- A flit's header fields. -/
structure FlitHdr where
  ftype : Nat
  head : Bool
  tail : Bool
  poison : Bool
  cls : Nat
  vc : Nat
  ackv : Bool
  seq : Nat
  ack : Nat
  crv : Bool
  crvc : Nat
  crcls : Nat
  crcnt : Nat
  dest : Nat
  src : Nat
  flow : Nat
  valid : Nat
  hops : Nat
  deriving DecidableEq, Repr

/-- A header with every field zero. -/
def FlitHdr.zero : FlitHdr :=
  { ftype := 0, head := false, tail := false, poison := false, cls := 0, vc := 0, ackv := false, seq := 0, ack := 0,
    crv := false, crvc := 0, crcls := 0, crcnt := 0, dest := 0, src := 0, flow := 0, valid := 0, hops := 0 }

/-- A flag as a bit at a place. -/
def flagAt (b : Bool) (k : Nat) : Nat := if b then 2 ^ k else 0

/-- The header as a number. -/
def FlitHdr.word (h : FlitHdr) : Nat :=
  h.ftype % 16 + flagAt h.head 4 + flagAt h.tail 5 + flagAt h.poison 6 + h.cls % 2 * 2 ^ 7 + h.vc % 8 * 2 ^ 8 +
  flagAt h.ackv 11 + h.seq % 2048 * 2 ^ 12 + h.ack % 2048 * 2 ^ 23 + flagAt h.crv 34 + h.crvc % 8 * 2 ^ 35 +
  h.crcls % 2 * 2 ^ 38 + h.crcnt % 128 * 2 ^ 39 + h.dest % 16384 * 2 ^ 46 + h.src % 16384 * 2 ^ 60 + h.flow % 64 * 2 ^ 74 +
  h.valid % 256 * 2 ^ 80 + h.hops % 64 * 2 ^ 88

/-- A flit's header, and its reserved bits [95:94]. -/
def flitHdr (bs : List Byte) : FlitHdr :=
  let w := natOfBytes (bs.take 12)
  { ftype := bitsOf w 3 0, head := bitOf w 4, tail := bitOf w 5, poison := bitOf w 6, cls := bitsOf w 7 7,
    vc := bitsOf w 10 8, ackv := bitOf w 11, seq := bitsOf w 22 12, ack := bitsOf w 33 23, crv := bitOf w 34,
    crvc := bitsOf w 37 35, crcls := bitsOf w 38 38, crcnt := bitsOf w 45 39, dest := bitsOf w 59 46, src := bitsOf w 73 60,
    flow := bitsOf w 79 74, valid := bitsOf w 87 80, hops := bitsOf w 93 88 }
def flitReserved (bs : List Byte) : Nat := bitsOf (natOfBytes (bs.take 12)) 95 94

/-- The 240 payload bytes. -/
def flitPayload (bs : List Byte) : List Byte := (bs.drop 12).take 240

/-- A flit of a header and a payload, with its CRC (R338). -/
def mkFlit (h : FlitHdr) (payload : List Byte) : FlitBytes :=
  let body := bytesOfNat 12 h.word ++ payload ++ List.replicate (240 - payload.length) 0
  body ++ bytesOfNat 4 (crc32c body).toNat

/-- A flit with its header changed, the CRC formed afresh. -/
def modFlit (f : FlitHdr → FlitHdr) (bs : FlitBytes) : FlitBytes := mkFlit (f (flitHdr bs)) (flitPayload bs)

/-- The CRC matches. -/
def flitCrcOk (bs : List Byte) : Bool :=
  decide (bs.length = 256) && natOfBytes (bs.drop 252) == (crc32c (bs.take 252)).toNat

/-- A payload cut into runs of 240 bytes, at most n of them. -/
def cut240 : Nat → List Byte → List (List Byte)
  | 0, _ => []
  | n + 1, bs => if bs.length ≤ 240 then [bs] else bs.take 240 :: cut240 n (bs.drop 240)

/-- How many flits a message takes. -/
def flitCount (m : Msg) : Nat := ((payloadBytes m).length + 239) / 240

/-- A message's flits, in class 0 (R341, R347). -/
def flitsOf (m : Msg) : List FlitBytes :=
  let runs := cut240 (flitCount m) (payloadBytes m)
  (List.range runs.length).map fun i =>
    let run := runs.getD i []
    let last := decide (i + 1 = runs.length)
    mkFlit { FlitHdr.zero with
      ftype := 1, head := decide (i = 0), tail := last, poison := m.bad.contains i, vc := m.vc, dest := m.dest, src := m.src,
      flow := m.flow, valid := if last then run.length else 0 } run

/-- The message that a run of flits carries. -/
def msgOf (fs : List FlitBytes) : Msg :=
  let h := flitHdr (fs.headD [])
  let payload := fs.flatMap (fun f => let g := flitHdr f; if g.tail then (flitPayload f).take g.valid else flitPayload f)
  let w := natOfBytes (payload.take 8)
  let kind := bitsOf w 3 0
  { src := h.src, dest := h.dest, vc := h.vc, flow := h.flow, kind := kind, sinc := bitsOf w 15 8, fseq := bitsOf w 31 16,
    bad := (List.range fs.length).filter (fun i => (flitHdr (fs.getD i [])).poison), body := bodyOf kind (payload.drop 8) }

end Sys2Proof.Machine
end

