-- ==== Sys2Proof/Machine/FabricOps.lean ====
section
/-! DEFINITION. Sending and accepting fabric messages (R360 to R363), fabric tags (R370), and what a reply does at the
requester (R274, R367, R370). -/
namespace Sys2Proof.Machine

/-- The Ickor and transaction pages. -/
def ickPage : Nat := 0x012
def txnPage : Nat := 0x013

/-- The state with the routers, or the transaction block, changed. -/
def modIck (f : Ick → Ick) (s : State) : State := { s with ick := f s.ick }
def modTxn (f : Txn → Txn) (s : State) : State := { s with txn := f s.txn }

/-- TXN_ROPSTAT of a requester code. -/
def setRopStat (code busy st : Nat) (s : State) : State := setWord (1 + code) txnPage 0x12C (busy + st * 2) s

/-- The module's identifier is valid (R328). -/
def idValid (s : State) : Bool := bitOf (rawWord s 0 ickPage 0x100) 31

/-! ### Sending -/

/-- A message leaves a block of the module: its envelope is formed and it is offered to the fabric (R360, R361). FSEQ counts
the messages of a VC and FLOW, as R360 words it. (DEDUCED, log entry 42.) -/
def sendMsg (dest vc flow kind : Nat) (bad : List Nat) (body : Body) (s : State) : State :=
  let key := vc * 64 + flow
  let n := mget 0 s.txn.fseq key
  let m : Msg :=
    { src := moduleId s, dest := dest, vc := vc, flow := flow, kind := kind, sinc := fieldOf s 0 txnPage 0x108 7 0,
      fseq := n, bad := bad, body := body }
  let s := modTxn (fun t => { t with fseq := mset t.fseq key ((n + 1) % 65536) }) s
  modIck (fun k => { k with outbox := k.outbox ++ [m] }) s

/-! ### Accepting (R362, R363) -/

/-- TTYPE of a message's body. -/
def ttypeOf (m : Msg) : Nat :=
  match m.body with
  | .txn h _ => h.ttype
  | .reply t _ => t
  | .red _ => 0
  | .mgmt _ => 0
  | .other _ => 0

/-- A control message: every VC7 message, and every VC6 one but a PNOTICE. -/
def isControl (m : Msg) : Bool := m.vc == 7 || (m.vc == 6 && !(m.kind == 1 && ttypeOf m == 8))

/-- CTLLOST for a message lost in a way of R381, charged to class [5] of the current step (R363). -/
def logCtlLost (src vc flow way : Nat) (s : State) : State :=
  chargeClass 5 s.bnd.step (logEvent txnPage 7 [src + vc * 2 ^ 16 + flow * 2 ^ 24, way] s)

/-- A control message that the destination discards. -/
def lostHere (m : Msg) (s : State) : State := if isControl m then logCtlLost m.src m.vc m.flow 3 s else s

/-- n messages of a flow skipped by a gap. -/
def logGap (m : Msg) : Nat → State → State
  | 0, s => s
  | n + 1, s => logGap m n (logCtlLost m.src m.vc m.flow 4 s)

/-- XBADMSG (R360, R364). -/
def logXbadmsg (m : Msg) (s : State) : State := lostHere m (logEvent txnPage 4 [m.src] s)

/-- A message arrives at the module: it leaves the inbox if the module's own routers delivered it, and R362 judges it. -/
def acceptMsg (m : Msg) (s : State) : Bool × State :=
  let s := modIck (fun k => { k with inbox := k.inbox.erase m }) s
  if m.kind = 0 ∨ 3 < m.kind then (false, logXbadmsg m s)
  else
    let key := (m.src * 8 + m.vc) * 64 + m.flow
    let next := ((m.fseq + 1) % 65536 : Nat)
    let take := fun (s : State) => modTxn (fun t => { t with flows := mset t.flows key (m.sinc, next) }) s
    match mfind s.txn.flows key with
    | none => (true, take s)
    | some (i, e) =>
      if m.sinc ≠ i then (true, take s)
      else
        let gap := (m.fseq + 65536 - e) % 65536
        if gap < 32768 then (true, take (if 6 ≤ m.vc then logGap m gap s else s))
        else (false, lostHere m (logEvent txnPage 2 [m.src + m.vc * 2 ^ 16 + m.flow * 2 ^ 24] s))

/-- A message of some row: when it is for this module and of that row's kind, and R362 accepts it, f acts on it. -/
def onMsg (m : Msg) (mine : Bool) (f : State → State) (s : State) : State :=
  if mine && m.dest == moduleId s then
    let r := acceptMsg m s
    if r.1 then f r.2 else r.2
  else s

/-! ### Tags (R370) -/

/-- The lowest key from n upward that a rising table does not hold. -/
def lowestGap {α : Type} : Map α → Nat → Nat
  | [], n => n
  | (k, _) :: t, n => if k = n then lowestGap t (n + 1) else n

/-- The lowest free fabric tag (DESIGN CHOICE, log entry 18). -/
def freeTag (s : State) : Option Nat :=
  let n := lowestGap s.txn.tags 0
  if n < 131072 then some n else none

/-- A transaction goes out with a tag it holds. -/
def sendTxn (tag : Nat) (o : Outstanding) (vc aop : Nat) (data : List Byte) (bad : List Nat) (s : State) : State :=
  let o := { o with issuedAt := s.now }
  let s := modTxn (fun t => { t with tags := mset t.tags tag o }) s
  let h : TxnHdr := { ttype := o.ttype, status := 0, tag := tag, addr := o.addr, lenm1 := o.len - 1, aop := aop }
  sendMsg o.dest vc o.flow 1 bad (.txn h data) s

/-- A transaction is issued, or waits for a tag. -/
def issueTxn (o : Outstanding) (vc aop : Nat) (data : List Byte) (s : State) : State :=
  match freeTag s with
  | some tag => sendTxn tag o vc aop data [] s
  | none => modTxn (fun t => { t with deferred := t.deferred ++ [(o, vc, aop, data)] }) s

/-- A tag returns to the pool; the first transaction that waits for one takes it. -/
def releaseTag (tag : Nat) (s : State) : State :=
  let s := modTxn (fun t => { t with tags := mdel t.tags tag }) s
  match s.txn.deferred with
  | [] => s
  | (o, vc, aop, data) :: rest => issueTxn o vc aop data (modTxn (fun t => { t with deferred := rest }) s)

/-- A poison notice for a range of another module, rounded out to 64 bytes, on FLOW 52 (R361, R373, R406); none for a
range of no bytes (R269). (DEDUCED, log entry 43.) -/
def sendPnotice (dest a n : Nat) (s : State) : State :=
  if n = 0 then s
  else
  let lo := a / 64 * 64
  let len := (a + n + 63) / 64 * 64 - lo
  let o : Outstanding :=
    { ttype := 8, dest := dest, flow := 52, addr := lo, len := 1, issuedAt := 0, use := .pnotice, timedOut := false }
  issueTxn o 6 0 (bytesOfNat 8 len) s

/-! ### Channels and their transfers -/

/-- A transfer's own part: the flow that the channel's transactions carry is the channel's number (R361). -/
def modXfer (ch serial : Nat) (f : Xfer → Xfer) (s : State) : State :=
  let on := fun (x : Xfer) => if x.serial = serial then f x else x
  modChan (Fin.ofNat 40 ch) (fun k => { k with active := k.active.map on, shadow := k.shadow.map on }) s

/-- A transfer that a channel holds, in either set. -/
def xferOf (s : State) (ch serial : Nat) : Option Xfer :=
  let k := s.chan (Fin.ofNat 40 ch)
  (k.active.filter (fun x => x.serial == serial)).or (k.shadow.filter (fun x => x.serial == serial))

/-- The channel still holds the transfer. -/
def hasXfer (s : State) (ch serial : Nat) : Bool := (xferOf s ch serial).isSome

/-- Tags a channel holds (R274). -/
def chanTags (s : State) (ch : Nat) : Nat := s.txn.tags.countP (fun t => match t.2.use with
  | .rowRead c _ _ _ => c == ch
  | .dropped c => c == ch
  | .rowWrite c _ _ => c == ch
  | .readBack c _ => c == ch
  | .rop _ => false
  | .pnotice => false)

/-- A channel's DMA page, its number on that page, and the offset of a register of it (R278). -/
def dmaPage (ch : ChanId) : Nat := if ch.val < 32 then coreP (Fin.ofNat 4 (ch.val / 8)) 6 else 0x014
def dmaNo (ch : ChanId) : Nat := ch.val % 8

def dmaOff (ch : ChanId) (o : Nat) : Nat := 0x100 + 0x80 * dmaNo ch + o

/-- The requester code of a channel (R261). -/
def chanWho (ch : ChanId) : Nat := if ch.val < 32 then ch.val / 8 else whoWide

/-- Read data of a dropped transfer returns: LATEDROP once for the transfer (R226, R279). -/
def lateReturn (ch serial : Nat) (s : State) : State :=
  let c : ChanId := Fin.ofNat 40 ch
  if (s.chan c).late.contains serial then
    logEvent (dmaPage c) 5 [] (modChan c (fun k => { k with late := kdel k.late serial }) s)
  else s

/-- A list with new elements written over it from a place. -/
def splice {α : Type} (off : Nat) (new old : List α) : List α := old.take off ++ new ++ old.drop (off + new.length)

/-- Bytes of a row arrive, each with its poison mark. -/
def deliverRow (ch serial row off : Nat) (bs : List (Byte × Bool)) (s : State) : State :=
  if hasXfer s ch serial then
    modXfer ch serial (fun x => match mfind x.rowsIn row with
      | some old => { x with rowsIn := mset x.rowsIn row (splice off bs old) }
      | none => x) s
  else lateReturn ch serial s

/-- Rows of a transfer (R265, R269). -/
def xferRows (d : List Nat) : Nat :=
  let ndim := bitsOf (d.getD 0 0) 14 12
  let c := fun (k w hi lo : Nat) => if k < ndim then bitsOf (d.getD w 0) hi lo else 1
  if d.getD 1 0 = 0 then 0 else c 1 2 15 0 * c 2 2 31 16 * c 3 3 15 0 * c 4 3 31 16

/-- DMA_TAGMAX of a channel (R278). -/
def tagMax (s : State) (ch : ChanId) : Nat :=
  let n := fieldOf s 0 (dmaPage ch) (dmaOff ch 0x68) 17 0
  if n = 0 then 131072 else n

/-- A tag is free for a transfer of the channel (R274). -/
def chanTag (s : State) (ch : ChanId) (x : Xfer) : Option Nat := if chanTags s ch.val < x.tagLim then freeTag s else none

/-! ### Bytes with marks -/

/-- Bytes stored at a local address in whichever memory holds it. -/
def storeAny (bad : Bool) (a : Nat) (bs : List Byte) (s : State) : State :=
  if winOf a = .unified then writeReady bad a bs s else writeMarked bad a bs s

/-- A range divided at line boundaries. -/
def lineChunks (a n : Nat) : List (Nat × Nat) :=
  if n = 0 then []
  else (List.range ((a + n - 1) / 64 - a / 64 + 1)).map fun k =>
    let l := a / 64 + k
    let lo := max a (64 * l)
    (lo, min (a + n) (64 * l + 64) - lo)

/-- Marked bytes stored: a line is poisoned when any byte written to it is (R411). -/
def storeMarks (a : Nat) (bs : List (Byte × Bool)) (s : State) : State :=
  if bs.all (fun b => !b.2) then storeAny false a (bs.map (·.1)) s
  else forAll (fun (x : Nat × Nat) s =>
    let part := (bs.drop (x.1 - a)).take x.2
    storeAny (part.any (·.2)) x.1 (part.map (·.1)) s) (lineChunks a bs.length) s

/-- n bytes at a local address with the poison marks of their lines. -/
def loadMarks (s : State) (a n : Nat) : List (Byte × Bool) :=
  (List.range n).map (fun k => (memGet s.mem (a + k), s.poison.contains ((a + k) / 64)))

/-- The local address of byte k of a run of pieces. -/
def pieceAddr : List (Nat × Nat) → Nat → Nat
  | [], k => k
  | (a, n) :: t, k => if k < n then a + k else pieceAddr t (k - n)

/-- POISONRX (R381). -/
def logPoisonrx (a : Nat) (s : State) : State := logEvent txnPage 6 [a % 2 ^ 32, a / 2 ^ 32 % 2 ^ 12] s

/-- A range crosses a 4 KiB boundary. -/
def crosses4k (a n : Nat) : Bool := a / 4096 != (a + n - 1) / 4096

/-- The flits of a message that hold marked bytes, the first byte lying at an offset of the payload. -/
def badFlits (off : Nat) (bs : List (Byte × Bool)) : List Nat :=
  (List.range bs.length).foldl (fun l k => if (bs.getD k (0, false)).2 then kins l ((off + k) / 240) else l) []

/-! ### Free bytes -/

/-- n bytes whose values nothing states (DESIGN CHOICE, log entry 3). -/
def freeBytes (n : Nat) (s : State) : List Byte × State :=
  ((List.range n).map (fun k => (Config.freeValue (s.freeCtr + k)).setWidth 8), { s with freeCtr := s.freeCtr + n })

end Sys2Proof.Machine
end

