-- ==== Sys2Proof/Machine/LinkOps.lean ====
section
/-! DEFINITION. The edge routers: routes (R347 to R351), input buffers and outputs (R341, R342, R345), replay (R339, R340),
and a port's way up and down (R333 to R335). -/
namespace Sys2Proof.Machine

/-- The edge-router page of a port, and the offset there of a register of the port (R330, R356). -/
def prtPage (p : PortId) : Nat := 0x018 + p.val / 6
def prtOff (p : PortId) (o : Nat) : Nat := 0x100 + 0x40 * (p.val % 6) + o

/-- A port, and the state with it changed. -/
def portOf (s : State) (p : PortId) : Port := mget Port.reset s.ick.ports p.val
def modPort (p : PortId) (f : Port → Port) (s : State) : State :=
  modIck (fun k => { k with ports := mmod Port.reset k.ports p.val f }) s

/-- An event of a port (R357): its local index, and further words. -/
def logPort (p : PortId) (flag more w1 : Nat) (s : State) : State :=
  logEvent (prtPage p) flag [p.val % 6 + more * 2 ^ 4, w1] s

/-- Every port, 0 first. -/
def allPorts : List PortId := List.finRange 24

/-- The ports that are UP. -/
def upPorts (s : State) : List PortId := allPorts.filter (fun p => (portOf s p).state == 5)

/-! ### Routes -/

/-- R348's hash. -/
def routeHash (src dest vc flow : Nat) : Nat := (src * 0x9E37 + dest * 0x85EB + flow * 0xC2B2 + vc) % 65536

/-- The set U of a destination: bit p for each port that its valid entry permits and that is UP. -/
def routeMask (s : State) (dest : Nat) : Nat :=
  let e := (mget (0 : W32) s.ick.routes dest).toNat
  if bitOf e 24 then ((upPorts s).filter (fun p => bitOf e p.val)).foldl (fun m p => m + 2 ^ p.val) 0 else 0

/-- The port of a set that the hash picks, counting in ascending order; none of an empty set. -/
def pickPort (mask src dest vc flow : Nat) : Option PortId :=
  let u := allPorts.filter (fun p => bitOf mask p.val)
  u[routeHash src dest vc flow % u.length]?

/-- The port that R348 chooses, none without a route (R349). -/
def routePort (s : State) (src dest vc flow : Nat) : Option PortId := pickPort (routeMask s dest) src dest vc flow

/-- A flit that leaves for a destination is sent in class 1 from here on (R347). -/
def outClass (s : State) (h : FlitHdr) : Nat :=
  if bitOf (mget (0 : W32) s.ick.routes h.dest).toNat 25 then 1 else h.cls

/-- The lowest destination whose set of ports differs from the one in force, the module itself aside (R348, R351). -/
def changedDest (s : State) : Option Nat :=
  (((s.ick.routes.map (·.1)) ++ s.ick.inForce.map (·.1)).foldl kins []).find? (fun d =>
    d != moduleId s && routeMask s d != mget 0 s.ick.inForce d)

/-- The sets in force looked at again after a change of routes (R351): every flow whose port changes is held for
ICK_FLOWHOLD. (DEDUCED, log entry 54.) -/
def routeChange (s : State) : State :=
  let dests := ((s.ick.routes.map (·.1)) ++ s.ick.inForce.map (·.1)).foldl kins []
  match dests.filter (fun d => d != moduleId s && routeMask s d != mget 0 s.ick.inForce d) with
  | [] => s
  | d :: ds =>
    let till := s.now + usCycles (fieldOf s 0 ickPage 0x110 15 0)
    let holdOf := fun (d : Nat) => ({ dest := d, old := mget 0 s.ick.inForce d, new := routeMask s d, till := till } : Hold)
    modIck (fun k =>
      { k with
        holds := (k.holds ++ (d :: ds).map holdOf).filter (fun h => decide (s.now < h.till))
        inForce := (d :: ds).foldl (fun m d => mput 0 m d (routeMask s d)) k.inForce }) s

/-- The hold that the next message of a flow waits for (R351). -/
def flowHold (s : State) (src dest vc flow : Nat) : Option Hold :=
  s.ick.holds.find? (fun h => h.dest == dest && decide (s.now < h.till) &&
    pickPort h.old src dest vc flow != pickPort h.new src dest vc flow)
def isHeld (s : State) (h : FlitHdr) : Bool := (flowHold s h.src h.dest h.vc h.flow).isSome

/-! ### Routers (R330): inputs and outputs

Inputs and outputs are numbered alike. 0 to 23 are ports, 24 + a the local port of router a, and 28 + 4a + b the internal link
from router a to router b, an output of a and an input of b. As an output 63 stands for discard. -/

/-- The router of an input. -/
def inRouter (i : Nat) : Nat := if i < 24 then i / 6 else if i < 28 then i - 24 else i % 4
/-- The router of an output. -/
def outRouter (o : Nat) : Nat := if o < 24 then o / 6 else if o < 28 then o - 24 else (o - 28) / 4
/-- The internal link from router a to router b. -/
def linkOf (a b : Nat) : Nat := 28 + 4 * a + b
/-- A router's inputs: its ports, its local port, and the links from the other routers. -/
def inputsOf (a : Nat) : List Nat :=
  (List.range 6).map (fun k => 6 * a + k) ++ [24 + a] ++ ((List.range 4).filter (· != a)).map (fun b => linkOf b a)

/-! ### Input buffers -/

/-- An input buffer's key. -/
def bufKey (input vc cls : Nat) : Nat := input * 16 + vc * 2 + cls

/-- Flits that a buffer holds (R342). -/
def bufDepth (vc : Nat) : Nat := if vc = 7 then 8 else 128

/-- n freed places of an input buffer are owed to the far end as credits. -/
def oweCredit (key n : Nat) (s : State) : State :=
  if h : key / 16 < 24 then modPort ⟨key / 16, h⟩ (fun p => { p with owed := mmod 0 p.owed (key % 16) (· + n) }) s else s

/-- The first flit of a buffer leaves it, with a credit unless combining added it. -/
def popBuffer (key : Nat) (s : State) : State :=
  let more := mget 0 s.ick.extra key
  let head := (flitHdr ((mget [] s.ick.buffers key).headD [])).head
  let s := modIck (fun k =>
    { k with
      buffers := mput [] k.buffers key (mget [] k.buffers key).tail
      chosen := if head then mput [] k.chosen key (mget [] k.chosen key).tail else k.chosen }) s
  if more = 0 then oweCredit key 1 s else modIck (fun k => { k with extra := mput 0 k.extra key (more - 1) }) s

/-- A flit belongs to a control message (R363). A PNOTICE is one flit, so a message of more flits is none. -/
def controlFlit (f : FlitBytes) : Bool :=
  let h := flitHdr f
  if h.head && h.tail then isControl (msgOf [f]) else h.vc == 7 || h.vc == 6

/-- CTLLOST for a flit's message, when it is a control message. -/
def lostFlit (way : Nat) (f : FlitBytes) (s : State) : State :=
  let h := flitHdr f
  if controlFlit f then logCtlLost h.src h.vc h.flow way s else s

/-- The port chosen for the first HEAD of a buffer: once for the message, where it entered the module (R348). One that is
no longer UP is chosen anew. (DEDUCED, log entry 54.) -/
def chosenPort (s : State) (key : Nat) (h : FlitHdr) : Option PortId :=
  let again := routePort s h.src h.dest h.vc h.flow
  match mget [] s.ick.chosen key with
  | [] => again
  | q :: _ => match (upPorts s).find? (fun p => p.val == q.1) with
    | some p => some p
    | none => again

/-- The class in which the message of that HEAD leaves by its port: that of the entry by which the port was chosen (R347). -/
def chosenClass (s : State) (key : Nat) (h : FlitHdr) : Nat :=
  match mget [] s.ick.chosen key with
  | [] => outClass s h
  | q :: _ => if (upPorts s).any (fun p => p.val == q.1) then q.2 else outClass s h

/-- Why the message of a buffer's first HEAD is discarded: 1 no route, 2 hops (R349, R350). -/
def discardCause (s : State) (key : Nat) (h : FlitHdr) : Nat :=
  if h.dest = moduleId s then 0
  else if (chosenPort s key h).isNone then 1
  else if fieldOf s 0 ickPage 0x104 5 0 < h.hops + 1 then 2 else 0

/-- The way of the message of a buffer's first HEAD (R330, R348): to the module itself by the router's local port, by a port of
the router, or by the internal link to the port's router. DATELINE acts where the flit leaves by a port (R347). -/
def headRoute (s : State) (key : Nat) (f : FlitBytes) : Option Route :=
  let h := flitHdr f
  let a := inRouter (key / 16)
  if h.dest = moduleId s then some { out := 24 + a, port := 0, cls := h.cls, leave := h.cls, head := f }
  else if isHeld s h && mget [] s.ick.chosen key == [] then none
  else (chosenPort s key h).map fun p =>
    let c := chosenClass s key h
    if p.val / 6 = a then { out := p.val, port := p.val, cls := c, leave := c, head := f }
    else { out := linkOf a (p.val / 6), port := p.val, cls := h.cls, leave := c, head := f }

/-- The way of a buffer's first flit: its message's, which its HEAD took. -/
def nextRoute (s : State) (key : Nat) (f : FlitBytes) : Option Route :=
  match mfind s.ick.routed key with
  | some r => some r
  | none => headRoute s key f

/-- A buffer's first flits that are to be discarded leave it: those of a message that is being discarded, strays, and a
message whose HEAD has no way on. At most n flits. -/
def settleBuffer (key : Nat) : Nat → State → State
  | 0, s => s
  | n + 1, s =>
    match mget [] s.ick.buffers key with
    | [] => s
    | f :: _ =>
      let h := flitHdr f
      let unroute := fun (s : State) => if h.tail then modIck (fun k => { k with routed := mdel k.routed key }) s else s
      match mfind s.ick.routed key with
      | some r => if r.out = 63 then settleBuffer key n (unroute (popBuffer key s)) else s
      | none =>
        if !h.head then settleBuffer key n (popBuffer key s)
        else
          let c := discardCause s key h
          if c = 0 then s
          else
            let s := logEvent ickPage c [h.dest + h.src * 2 ^ 16] s
            let s := lostFlit 2 f s
            let s := modIck (fun k => { k with routed := mset k.routed key { out := 63, port := 0, cls := 0, leave := 0, head := f } }) s
            settleBuffer key n (unroute (popBuffer key s))

/-- Every buffer looked at after a change of routes. -/
def settleAll (s : State) : State :=
  forAll (fun (x : Nat × List FlitBytes) s => settleBuffer x.1 x.2.length s) s.ick.buffers s

/-- Flits join an input buffer. -/
def pushBuffer (key : Nat) (fs : List FlitBytes) (s : State) : State :=
  let s := modIck (fun k => { k with buffers := mset k.buffers key (mget [] k.buffers key ++ fs) }) s
  settleBuffer key (mget [] s.ick.buffers key).length s

/-! ### Combining (R314) -/

/-- A whole CONTRIB that waits in an input buffer: the buffer, where its flits begin there and how many they are. -/
structure Waiting where
  key : Nat
  pos : Nat
  flits : Nat
  hdr : FlitHdr
  msg : Msg
  red : RedMsg
  deriving DecidableEq, Repr

/-- The runs of flits that end with a TAIL, in order, after those gathered so far. -/
def tailRuns : List FlitBytes → List FlitBytes → List (List FlitBytes)
  | _, [] => []
  | acc, f :: t => if (flitHdr f).tail then (acc ++ [f]) :: tailRuns [] t else tailRuns (acc ++ [f]) t

/-- A run of flits read as an unpoisoned CONTRIB that is whole. -/
def contribRun (key pos : Nat) (fs : List FlitBytes) : Option Waiting :=
  let h := flitHdr (fs.headD [])
  let m := msgOf fs
  match m.body with
  | .red r =>
    if h.head ∧ (h.vc = 4 ∨ h.vc = 5) ∧ (flitHdr (fs.getLastD [])).valid ≠ 0 ∧ m.bad = [] ∧ m.kind = 2 ∧ r.type = 1 then
      some { key := key, pos := pos, flits := fs.length, hdr := h, msg := m, red := r }
    else none
  | .txn _ _ => none
  | .reply _ _ => none
  | .mgmt _ => none
  | .other _ => none

/-- The whole CONTRIBs that wait in a buffer, in order. -/
def waitingContribs (s : State) (key : Nat) : List Waiting :=
  ((tailRuns [] (mget [] s.ick.buffers key)).foldl (fun (x : Nat × List Waiting) fs =>
    (x.1 + fs.length, x.2 ++ (contribRun key x.1 fs).toList)) (0, [])).2

/-- R314 lets a router combine two CONTRIBs that wait. -/
def mayCombine (s : State) (a b : Waiting) : Bool :=
  let out := fun (w : Waiting) => chosenPort s w.key w.hdr
  inRouter (a.key / 16) == inRouter (b.key / 16) && (out a).isSome && out a == out b &&
  a.hdr.dest == b.hdr.dest && a.red.chan == b.red.chan && a.red.step == b.red.step &&
  a.red.bucket == b.red.bucket && a.red.home == b.red.home && a.red.scale == b.red.scale &&
  a.red.elems.length == b.red.elems.length && (redMembers a.red).all (fun m => !(redMembers b.red).contains m)

/-- Two CONTRIBs combined, the first being the earlier: memberships joined, counts and elements added. -/
def joinRed (a b : RedMsg) : RedMsg :=
  { a with
    wide := true, map := some ((redMembers b).foldl kins ((redMembers a).foldl kins [])), count := a.count + b.count,
    elems := List.zipWith (· + ·) a.elems b.elems }

/-- The combined message takes the place of the earlier one, and the later one's flits leave their buffer. -/
def joinWaiting (a b : Waiting) (s : State) : State :=
  let fs := (flitsOf { a.msg with body := .red (joinRed a.red b.red) }).map
    (modFlit (fun h => { h with cls := a.hdr.cls, hops := a.hdr.hops }))
  let cut := fun (w : Waiting) (new old : List FlitBytes) => old.take w.pos ++ new ++ old.drop (w.pos + w.flits)
  let before := ((mget [] s.ick.buffers b.key).take b.pos).countP (fun f => (flitHdr f).head)
  let s := modIck (fun k =>
    { k with
      buffers := mput [] k.buffers b.key (cut b [] (mget [] k.buffers b.key))
      chosen := mput [] k.chosen b.key ((mget [] k.chosen b.key).eraseIdx before) }) s
  let s := oweCredit b.key b.flits s
  modIck (fun k =>
    { k with
      buffers := mset k.buffers a.key (cut a fs (mget [] k.buffers a.key))
      extra := mput 0 k.extra a.key (mget 0 k.extra a.key + (fs.length - a.flits)) }) s

/-- The CONTRIB that has just become whole in a buffer, and the first other one with which it may be combined. -/
def combinePair (s : State) (key : Nat) : Option (Waiting × Waiting) :=
  match (waitingContribs s key).getLast? with
  | none => none
  | some b =>
    if b.pos + b.flits = (mget [] s.ick.buffers key).length then
      ((s.ick.buffers.flatMap (fun x => waitingContribs s x.1)).find? (fun a => a != b && mayCombine s a b)).map (fun a => (a, b))
    else none

/-- A router may combine the CONTRIB that has just become whole with one that waits (R314): a free value decides
(DESIGN CHOICE, log entry 36). -/
def combineAt (key : Nat) (s : State) : State :=
  match combinePair s key with
  | none => s
  | some (a, b) => if (freeOf s).getLsbD 0 then joinWaiting a b (useFree s) else useFree s

/-- Flits arrive in an input buffer; a CONTRIB that they complete may be combined. -/
def arriveFlits (key : Nat) (fs : List FlitBytes) (s : State) : State := combineAt key (pushBuffer key fs s)

/-- A delivered message still keeps its places at a local port: it has not been acted on, or waits for its record (R316). -/
def keepsPlace (s : State) (m : Msg) : Bool := s.ick.inbox.contains m || s.red.waiting.contains m

/-- A flit for the module itself leaves by an output: at its TAIL the message is delivered, or discarded if the TAIL aborts it
(R341, R348). -/
def assemble (key cls : Nat) (f : FlitBytes) (s : State) : State :=
  let h := flitHdr f
  let fs := if h.head then [f] else mget [] s.ick.assembling key ++ [f]
  if !h.tail then modIck (fun k => { k with assembling := mset k.assembling key fs }) s
  else
    let s := modIck (fun k => { k with assembling := mdel k.assembling key }) s
    let whole := (flitHdr (fs.headD [])).head
    if h.valid = 0 ∨ !whole then s
    else
      let m := msgOf fs
      modIck (fun k =>
        { k with inbox := k.inbox ++ [m], parked := k.parked.filter (fun x => keepsPlace s x.2) ++ [(key * 2 + cls, m)] }) s

/-! ### Outputs (R345) -/

/-- The flits that delivered messages hold of a local port's places. -/
def parkedFlits (s : State) (key : Nat) : Nat :=
  ((s.ick.parked.filter (fun x => x.1 == key && keepsPlace s x.2)).map (fun x => flitCount x.2)).sum

/-- An output can take a flit of a VC in a class: a port's credit, or a place in the buffer at a link's far end or of the local
port (R342). The module takes the flits of a message that it receives as they come, so that only messages that wait to be acted
on fill a local port (DEDUCED, log entry 104). -/
def canTake (s : State) (o vc cls : Nat) (head : Bool) : Bool :=
  if o < 24 then decide (0 < mget 0 (mget Port.reset s.ick.ports o).credits (vc * 2 + cls))
  else if o < 28 then !head || decide (parkedFlits s (bufKey o vc cls) < bufDepth vc)
  else decide ((mget [] s.ick.buffers (bufKey o vc cls)).length < bufDepth vc)

/-- A buffer's first flit may go by an output: its way leads there, and the output can take it. -/
def readyFor (s : State) (o key : Nat) : Bool :=
  match mget [] s.ick.buffers key with
  | [] => false
  | f :: _ => match nextRoute s key f with
    | some r => r.out == o && canTake s o (flitHdr f).vc r.cls (flitHdr f).head
    | none => false

/-- The inputs of a router that a VC of an output serves, as input × 2 + class, in the order of their turns: the inputs after
the one served last, and of each the class that was not served last of it first (R345; DEDUCED, log entry 105). -/
def turnOrder (router : Nat) (last : Option Nat) (cls : Nat → Nat) : List Nat :=
  let ins := inputsOf router
  let i := match last with
    | some l => ins.idxOf (l / 2) + 1
    | none => 0
  (ins.drop i ++ ins.take i).flatMap (fun j => [j * 2 + (1 - cls j), j * 2 + cls j])

/-- The input that a VC of an output serves next: the one granted until its TAIL, else the next in turn. -/
def nextInput (s : State) (o vc : Nat) : Option Nat :=
  let ok := fun (ic : Nat) => readyFor s o (bufKey (ic / 2) vc (ic % 2))
  match mfind s.ick.granted (o * 8 + vc) with
  | some ic => if ok ic then some ic else none
  | none =>
    let cls := fun (j : Nat) => mget 1 s.ick.lastClass ((o * 8 + vc) * 64 + j)
    (turnOrder (outRouter o) (mfind s.ick.lastInput (o * 8 + vc)) cls).find? ok

/-- ICK_VCW's weight of a VC; 0 means 16. -/
def vcWeight (s : State) (vc : Nat) : Nat :=
  let w := fieldOf s 0 ickPage 0x108 (4 * vc + 3) (4 * vc)
  if w = 0 then 16 else w

/-- The flit that an output chooses: its VC and input, and the round robin's turn afterwards. -/
def chooseFlit (s : State) (o : Nat) : Option (Nat × Nat × (Nat × Nat)) :=
  let t := mget (6, 0) s.ick.turn o
  match nextInput s o 7 with
  | some ic => some (7, ic, t)
  | none =>
    let cur := if 0 < t.2 then (nextInput s o t.1).map (fun ic => (t.1, ic, (t.1, t.2 - 1))) else none
    match cur with
    | some x => some x
    | none =>
      ((List.range 7).map (fun k => (t.1 + 1 + k) % 7)).findSome? fun vc =>
        (nextInput s o vc).map (fun ic => (vc, ic, (vc, vcWeight s vc - 1)))

/-- The first flit of a buffer leaves it by an output, which serves its message until the TAIL (R341, R345). -/
def grantFlit (o vc ic : Nat) (turn : Nat × Nat) (r : Route) (h : FlitHdr) (s : State) : State :=
  let key := bufKey (ic / 2) vc (ic % 2)
  popBuffer key (modIck (fun i =>
    { i with
      turn := mset i.turn o turn
      lastInput := mset i.lastInput (o * 8 + vc) ic
      lastClass := mput 1 i.lastClass ((o * 8 + vc) * 64 + ic / 2) (ic % 2)
      routed := if h.tail then mdel i.routed key else mset i.routed key r
      granted := if h.tail then mdel i.granted (o * 8 + vc) else mset i.granted (o * 8 + vc) ic }) s)

/-- A flit moves inside the module, to itself or over an internal link, where a HEAD keeps its port. -/
def moveFlit (o vc ic : Nat) (turn : Nat × Nat) (s : State) : State :=
  let key := bufKey (ic / 2) vc (ic % 2)
  match mget [] s.ick.buffers key with
  | [] => s
  | f :: _ => match nextRoute s key f with
    | none => s
    | some r =>
      let h := flitHdr f
      let s := grantFlit o vc ic turn r h s
      let s :=
        if o < 28 then assemble (o * 8 + vc) h.cls f s
        else
          let far := bufKey o vc h.cls
          let s := if h.head then modIck (fun k => { k with chosen := mset k.chosen far (mget [] k.chosen far ++ [(r.port, r.leave)]) }) s
            else s
          arriveFlits far [f] s
      settleBuffer key (mget [] s.ick.buffers key).length s

/-- The first of the flits that wait at a local port enters its buffer, when that has a place. -/
def feedFlit (s : State) : Option State :=
  s.ick.feed.findSome? fun x =>
    let key := bufKey (24 + x.1 / 8) (x.1 % 8) 0
    match x.2 with
    | [] => none
    | f :: t =>
      if (mget [] s.ick.buffers key).length < bufDepth (x.1 % 8) then
        some (arriveFlits key [f] (modIck (fun k => { k with feed := mput [] k.feed x.1 t }) s))
      else none

/-- The local ports and internal links that the first flits of the buffers make for. -/
def innerOutputs (s : State) : List Nat :=
  s.ick.buffers.filterMap fun x => match x.2 with
    | [] => none
    | f :: _ => (nextRoute s x.1 f).bind (fun r => if 24 ≤ r.out ∧ r.out ≠ 63 then some r.out else none)

/-- One flit moves inside the module, if one can. -/
def innerMove (s : State) : Option State :=
  match feedFlit s with
  | some s => some s
  | none => (innerOutputs s).findSome? (fun o => (chooseFlit s o).map (fun x => moveFlit o x.1 x.2.1 x.2.2 s))

/-- At most n flits move inside the module. -/
def innerMoves : Nat → State → State
  | 0, s => s
  | n + 1, s => match innerMove s with
    | some s => innerMoves n s
    | none => s

/-- Flits move to the module itself, into local buffers and over internal links as far as places allow: no command paces them
(DESIGN CHOICE, log entry 52). None moves more than four times. -/
def runRouters (s : State) : State :=
  let count := fun (m : Map (List FlitBytes)) => (m.map (fun x => x.2.length)).sum
  innerMoves (4 * (count s.ick.buffers + count s.ick.feed)) s

/-- An accepted DATA flit enters its buffer (R341, R348). -/
def enterFlit (p : PortId) (f : FlitBytes) (s : State) : State :=
  let h := flitHdr f
  runRouters (arriveFlits (bufKey p.val h.vc h.cls) [f] s)

/-! ### The link -/

/-- The first credit return that is owed: VC × 2 + class and the count it carries. -/
def creditOwed (k : Port) : Option (Nat × Nat) :=
  (k.owed.find? (fun x => decide (0 < x.2))).map (fun x => (x.1, min x.2 127))

/-- A flit goes out on a port with the port's ACK and, but on a NAK, a credit return (R336, R337, R339). -/
def emitFlit (p : PortId) (h : FlitHdr) (payload : List Byte) (s : State) : State :=
  let k := portOf s p
  let h := { h with ackv := true, ack := (k.rxSeq + 2047) % 2048 }
  let c := if h.ftype = 2 then none else creditOwed k
  let h := match c with
    | some (i, n) => { h with crv := true, crvc := i / 2, crcls := i % 2, crcnt := n }
    | none => { h with crv := false, crvc := 0, crcls := 0, crcnt := 0 }
  let s := modPort p (fun k =>
    { k with ackDue := false, owed := match c with
      | some (i, n) => mput 0 k.owed i (mget 0 k.owed i - n)
      | none => k.owed }) s
  { s with out := s.out ++ [.flit p (mkFlit h payload)] }

/-- A held flit as it goes out. -/
def emitHeld (p : PortId) (f : FlitBytes) (s : State) : State := emitFlit p (flitHdr f) (flitPayload f) s

/-- A DATA flit leaves a buffer by a port: numbered, held for replay, its hop counted (R339, R345, R350). -/
def sendData (p : PortId) (vc ic : Nat) (turn : Nat × Nat) (s : State) : State :=
  let key := bufKey (ic / 2) vc (ic % 2)
  match mget [] s.ick.buffers key with
  | [] => s
  | f :: _ =>
    let h := flitHdr f
    let k := portOf s p
    let r := (nextRoute s key f).getD { out := p.val, port := p.val, cls := outClass s h, leave := outClass s h, head := f }
    let sent := modFlit (fun h => { h with
      cls := r.cls, seq := k.txSeq, hops := h.hops + 1, ackv := false, ack := 0, crv := false, crvc := 0, crcls := 0,
      crcnt := 0 }) f
    let s := modPort p (fun k =>
      { k with txSeq := (k.txSeq + 1) % 2048, replay := k.replay ++ [sent],
               credits := mput 0 k.credits (vc * 2 + r.cls) (mget 0 k.credits (vc * 2 + r.cls) - 1) })
      (grantFlit p.val vc ic turn r h s)
    let s := bumpPair (prtPage p) (prtOff p 0x30) 1 s
    let s := emitHeld p sent s
    runRouters (settleBuffer key (mget [] s.ick.buffers key).length s)

/-- An ACK frees the held flits up to the one it names (R339). -/
def takeAck (ack : Nat) (k : Port) : Port :=
  match k.replay.findIdx? (fun f => (flitHdr f).seq == ack) with
  | none => k
  | some i =>
    let rest := k.replay.drop (i + 1)
    { k with replay := rest, resend := k.resend.filter (fun f => rest.contains f), lastNak := none, nakRun := 0 }

/-- What every good flit that a port receives delivers: its ACK and its credit return. -/
def takeHeader (p : PortId) (h : FlitHdr) (s : State) : State :=
  modPort p (fun k =>
    let k := if h.ackv then takeAck h.ack k else k
    if h.crv then { k with credits := mmod 0 k.credits (h.crvc * 2 + h.crcls) (· + h.crcnt) } else k) s

/-! ### Up and down -/

/-- A port begins to train (R333). What limits it runs from its leaving DOWN or UP, through a restart (R353). -/
def startTraining (p : PortId) (s : State) : State :=
  modPort p (fun k =>
    { k with state := 1, leftDown := if k.state = 0 ∨ k.state = 5 then some s.now else k.leftDown, rest := false,
             goodTrains := 0, sentTrains := 0, dup := false, layoutOk := false }) s

/-- A port may train: EN of the Ickor page and its own (R333), Meridian in RUN (R470), a lane limit that admits it (R331,
R450), and neither the port withdrawn nor the module out of service (R417). -/
def mayTrain (s : State) (p : PortId) : Bool :=
  pageEn s ickPage && bitOf (rawWord s 0 (prtPage p) (prtOff p 0)) 0 && s.power.meridian == 2 &&
    !(s.vesper.cfgOk && recordNat s 62 1 == 0) && !withdrawn s 3 p.val && !s.rel.out

/-- A DOWN port that may train and does not rest begins. -/
def tryTrain (p : PortId) (s : State) : State :=
  let k := portOf s p
  if k.state = 0 ∧ !k.rest ∧ mayTrain s p then startTraining p s else s

/-- A port's flits and the set of UP ports have changed: routes are looked at again. ROUTECHG is logged once, with the lowest
destination affected, after the events of lower bits that the change brings (R496). -/
def portsChanged (s : State) : State :=
  let t := runRouters (settleAll (routeChange s))
  match changedDest s with
  | some d => logEvent ickPage 3 [d] t
  | none => t

/-- A port returns to SIGNAL with its replay buffer kept (R335, R353). -/
def retrainPort (p : PortId) (s : State) : State :=
  let k := portOf s p
  if k.state = 0 then s
  else
    let s := modPort p (fun k => { k with nakSent := false, nakDue := false, lastNak := none, nakRun := 0 }) (startTraining p s)
    if k.state = 5 then portsChanged s else s

/-- Held flits that end their message, or are the last held of their VC and class: one for each message (R363). -/
def replayEnds : List FlitBytes → List FlitBytes
  | [] => []
  | f :: t =>
    let h := flitHdr f
    if h.tail || !t.any (fun g => (flitHdr g).vc == h.vc && (flitHdr g).cls == h.cls) then f :: replayEnds t else replayEnds t

/-- A flit that aborts a message (R341). -/
def abortFlit (h : FlitHdr) : FlitBytes :=
  mkFlit { FlitHdr.zero with
    ftype := 1, tail := true, cls := h.cls, vc := h.vc, dest := h.dest, src := h.src, flow := h.flow, hops := h.hops } []

/-- The router originates an abort for a port that has gone DOWN: ABORTMSG, and CTLLOST for a control message. -/
def logAbort (p : PortId) (h : FlitHdr) (s : State) : State :=
  let s := logPort p 7 h.vc 0 s
  if 6 ≤ h.vc then logCtlLost h.src h.vc h.flow 2 s else s

/-- The header of a message that has begun to arrive at an input buffer and is still incomplete. -/
def openMessage (s : State) (key : Nat) : Option FlitHdr :=
  match (mget [] s.ick.buffers key).getLast? with
  | some f => if (flitHdr f).tail then none else some (flitHdr f)
  | none => (mfind s.ick.routed key).map (fun r => flitHdr r.head)

/-- A message that was arriving at an input buffer is closed: one that is being discarded ends, and any other is ended by an
abort that follows it (R335, R341). -/
def closeInput (p : PortId) (key : Nat) (s : State) : State :=
  if ((mfind s.ick.routed key).map (·.out)) = some 63 then modIck (fun k => { k with routed := mdel k.routed key }) s
  else match openMessage s key with
    | some h => pushBuffer key [abortFlit h] (logAbort p h s)
    | none => s

/-- Messages that were going out on a port: what is left of them is discarded (R341, R353). A control message with a flit in
the replay buffer has been counted already. -/
def closeOutput (p : PortId) (replay : List FlitBytes) (s : State) : State :=
  let mine := s.ick.routed.filter (fun x => x.2.out == p.val)
  let s := forAll (fun (x : Nat × Route) s =>
    let h := flitHdr x.2.head
    let s := logPort p 7 h.vc 0 s
    let held := replay.any (fun f => let g := flitHdr f; g.src == h.src && g.vc == h.vc && g.flow == h.flow)
    let s := if held then s else lostFlit 2 x.2.head s
    modIck (fun k => { k with routed := mset k.routed x.1 { x.2 with out := 63 } }) s) mine s
  modIck (fun k => { k with granted := k.granted.filter (fun x => x.1 / 8 != p.val) }) s

/-- A port goes to DOWN (R335): its replay buffer is discarded, LINKDOWN with the count when it has been UP, and every
message that it was carrying is closed. -/
def portDown (p : PortId) (s : State) : State :=
  let k := portOf s p
  if k.state = 0 ∧ !k.rest then s
  else
    let s := if k.wasUp then logPort p 0 0 k.replay.length s else s
    let s := forAll (lostFlit 1) (replayEnds k.replay) s
    let s := modPort p (fun k =>
      { k with state := 0, leftDown := none, rest := false, wasUp := false, replay := [], resend := [], credits := [],
               owed := [], ackDue := false, nakDue := false, nakSent := false, lastNak := none, nakRun := 0 }) s
    let s := closeOutput p k.replay s
    portsChanged (forAll (closeInput p) ((List.range 16).map (fun j => p.val * 16 + j)) s)

/-- Initial credits that a port's TRAIN flits offer: the free places of its input buffers (R334, R342). -/
def freeBuffers (s : State) (p : PortId) : List Nat :=
  (List.range 16).map (fun j => bufDepth (j / 2) - (mget [] s.ick.buffers (p.val * 16 + j)).length)

/-- A port reaches UP (R333, R335): held flits from the SEQ that the far end names on are to be sent again. -/
def portUp (p : PortId) (s : State) : State :=
  let s := modPort p (fun k =>
    let k := takeAck ((k.peerExpects + 2047) % 2048) k
    let again := fun (j : Nat) => k.replay.countP (fun f => (flitHdr f).vc * 2 + (flitHdr f).cls == j)
    { k with state := 5, wasUp := true, resend := k.replay, txSeq := if k.replay = [] then k.peerExpects else k.txSeq,
             credits := (List.range 16).map (fun j => (j, k.peerCredits.getD j 0 - again j)) }) s
  portsChanged (logPort p 1 0 0 s)

/-- A port in FECLOCK moves to UP when 16 consecutive good TRAIN flits have been received and 16 sent (R333, R334). -/
def tryUp (p : PortId) (s : State) : State :=
  let k := portOf s p
  if k.state = 4 ∧ idValid s ∧ 16 ≤ k.goodTrains ∧ 16 ≤ k.sentTrains ∧ k.layoutOk ∧ !k.dup then portUp p s else s

/-- A TRAIN flit goes out (R334); what leaves the input buffers after the last of them is owed as credits. -/
def emitTrain (p : PortId) (s : State) : State :=
  let k := portOf s p
  let fields := bytesOfNat 2 (moduleId s) ++ bytesOfNat 1 p.val ++ bytesOfNat 1 1 ++ bytesOfNat 2 k.rxSeq ++ [0, 0] ++
    (freeBuffers s p).map (BitVec.ofNat 8)
  let s := { s with out := s.out ++ [.flit p (mkFlit { FlitHdr.zero with ftype := 3 } fields)] }
  let s := modIck (fun k => { k with extra := (List.range 16).foldl (fun e j =>
    let key := p.val * 16 + j
    mput 0 e key ((mget [] k.buffers key).length - bufDepth (j / 2))) k.extra }) s
  tryUp p (modPort p (fun k => { k with sentTrains := k.sentTrains + 1, owed := [] }) s)

/-- What a port sends next (R332, R333, R339, R345): in FECLOCK a TRAIN flit; in UP a NAK that is due, a flit to be resent,
a new DATA flit while fewer than 1,024 are held, else an IDLE flit. (DEDUCED, log entry 53.) -/
def sendNext (p : PortId) (s : State) : State :=
  let k := portOf s p
  if k.state = 4 then emitTrain p s
  else if k.state ≠ 5 then s
  else if k.nakDue then emitFlit p { FlitHdr.zero with ftype := 2 } [] (modPort p (fun k => { k with nakDue := false }) s)
  else match k.resend with
    | f :: t => emitHeld p f (modPort p (fun k => { k with resend := t }) s)
    | [] =>
      let s := runRouters s
      match if k.replay.length < 1024 then chooseFlit s p.val else none with
      | some (vc, ic, turn) => sendData p vc ic turn s
      | none => emitFlit p FlitHdr.zero [] s

/-! ### Receiving -/

/-- A flit that fails its CRC, was marked bad or is not the one expected: one NAK until the expected one arrives (R339). -/
def wantNak (p : PortId) (s : State) : State :=
  let k := portOf s p
  if k.state = 5 ∧ !k.nakSent then modPort p (fun k => { k with nakSent := true, nakDue := true }) s else s

/-- What the FEC decoder counted with a flit: corrected symbols, and uncorrectable codewords, each of which is logged (R332). -/
def countFec (p : PortId) (x : Flit) (s : State) : State :=
  let s := if x.fecCorr = 0 then s else bumpPair (prtPage p) (prtOff p 0x10) x.fecCorr s
  forAll (fun (_ : Unit) s => logPort p 4 0 0 (bumpPair (prtPage p) (prtOff p 0x18) 1 s)) (List.replicate x.fecUnc ()) s

/-- A flit is received (R332, R337, R338): a bad one is counted, and one with a reserved type or bits logs BADFLIT; a good one
of the type is acted on by f, and one that is no TRAIN flit breaks a run of those. (DESIGN CHOICE, log entry 52.) -/
def receiveFlit (p : PortId) (x : Flit) (type : Nat) (f : FlitHdr → State → State) (s : State) : State :=
  let k := portOf s p
  if k.state ≠ 4 ∧ k.state ≠ 5 then s
  else
    let h := flitHdr x.bytes
    let broken := fun (s : State) => modPort p (fun k => { k with goodTrains := 0 }) s
    let bad := fun (s : State) => wantNak p (broken (bumpPair (prtPage p) (prtOff p 0x20) 1 s))
    let s := countFec p x s
    if x.fecBad || x.fecUnc != 0 then bad s
    else if !flitCrcOk x.bytes then bad s
    else if 4 ≤ h.ftype ∨ flitReserved x.bytes ≠ 0 then bad (logPort p 5 0 0 s)
    else if h.ftype = type then f h (if type = 3 ∨ k.state = 5 then s else broken s)
    else s

/-- A good TRAIN flit (R334). -/
def takeTrain (p : PortId) (x : Flit) (s : State) : State :=
  if (portOf s p).state ≠ 4 then s
  else
    let b := flitPayload x.bytes
    let id := natOfBytes (b.take 2) % 16384
    let port := natOfBytes ((b.drop 2).take 1) % 32
    let layout := natOfBytes ((b.drop 3).take 1)
    let dup := idValid s && id == moduleId s
    let w := rawWord s 0 (prtPage p) (prtOff p 4)
    let w := putBits (putBits (putBits w 16 3 id) 21 17 port) 22 22 1
    let s := setWord 0 (prtPage p) (prtOff p 4) w s
    let s := if dup && !(portOf s p).dup then logPort p 6 0 0 s else s
    let s := modPort p (fun k =>
      { k with goodTrains := k.goodTrains + 1, dup := dup, layoutOk := layout == 1,
               peerExpects := natOfBytes ((b.drop 4).take 2) % 2048,
               peerCredits := ((b.drop 8).take 16).map (fun y => y.toNat) }) s
    tryUp p s

/-- A good DATA flit: accepted in sequence, else a NAK is due (R339). -/
def takeData (p : PortId) (x : Flit) (h : FlitHdr) (s : State) : State :=
  if (portOf s p).state ≠ 5 then s
  else
    let s := takeHeader p h s
    if h.seq = (portOf s p).rxSeq then
      let s := modPort p (fun k => { k with rxSeq := (k.rxSeq + 1) % 2048, nakSent := false, ackDue := true }) s
      enterFlit p x.bytes (bumpPair (prtPage p) (prtOff p 0x38) 1 s)
    else wantNak p s

/-- A NAK: the flits it acknowledges are freed, the rest are resent; too many NAKs for the same flit retrain the port
(R339, R340, R353). -/
def takeNak (p : PortId) (h : FlitHdr) (s : State) : State :=
  if (portOf s p).state ≠ 5 then s
  else
    let s := takeHeader p { h with ackv := true, crv := false } s
    let k := portOf s p
    let run := if k.lastNak = some h.ack then k.nakRun + 1 else 0
    let s := modPort p (fun k => { k with resend := k.replay, lastNak := some h.ack, nakRun := run }) s
    let s := bumpPair (prtPage p) (prtOff p 0x28) 1 s
    let w := fieldOf s 0 ickPage 0x124 7 0
    if (if w = 0 then 256 else w) ≤ run then retrainPort p (logPort p 3 0 0 s) else s

/-! ### Registers -/

/-- A write of PRT_CTRL (R333, R335, R353). -/
def writePrtCtrl (p : PortId) (v : Nat) (s : State) : State :=
  let s := storeWord 0 (prtPage p) (prtOff p 0) v s
  if !bitOf v 0 then portDown p s
  else
    let fresh := (portOf s p).state = 0
    let s := tryTrain p s
    if bitOf v 1 && !fresh then retrainPort p s else s

/-- A write of ICK_RTENTRY for the entry that the requester has selected (R347). -/
def writeRtentry (r : Req) (v : Nat) (s : State) : State :=
  let dest := bitsOf (ownWord s r ickPage 0x114) 13 0
  portsChanged (modIck (fun k => { k with routes := mput (0 : W32) k.routes dest (BitVec.ofNat 32 (v % 2 ^ 26)) }) s)

/-- The Ickor page's EN as it becomes (R333): set, every enabled port trains; cleared, every port goes DOWN. -/
def ickorEnabled (on : Bool) (s : State) : State := if on then forAll tryTrain allPorts s else forAll portDown allPorts s

/-! ### Injection (R346, R349) -/

/-- INJREF (R355). -/
def logInjref (cause : Nat) (m : Msg) (s : State) : State :=
  logEvent ickPage 0 [cause + m.vc * 2 ^ 4 + m.dest * 2 ^ 16] s

/-- The first message in order of its VC and FLOW among those offered (R344), or a fabric management message.
(DESIGN CHOICE, log entry 55.) -/
def mayInject (s : State) (m : Msg) : Bool :=
  (s.ick.outbox.find? (fun x => x.vc == m.vc && x.flow == m.flow)) == some m || (m.kind == 3 && m.src == moduleId s)

/-- Gnomon cycles in n Ickor cycles, rounded up (R9, R329). -/
def ickCycles (n : Nat) : Nat := (n * 64 + 24) / 25

/-- A VC7 message waits until the gap since the one before has passed (R346). -/
def waitGap (m : Msg) (s : State) : State :=
  if m.vc = 7 then
    let s := advanceTo s.ick.vc7Next s
    modIck (fun k => { k with vc7Next := s.now + ickCycles (fieldOf s 0 ickPage 0x10C 15 0) }) s
  else s

/-- A SOOP of a remote-operation register leaves: its requester's BUSY clears (R375). -/
def soopLeaves (m : Msg) (s : State) : State :=
  match s.txn.leaving.find? (fun x => x.2 == m) with
  | some x => modTxn (fun t => { t with leaving := t.leaving.erase x }) (setRopStat x.1 0 0 s)
  | none => s

/-- A message is offered to the fabric. Its flits enter class 0 by the local port of the router whose port it is to leave by
(R347, R352; DEDUCED, log entry 52). -/
def injectMsg (m : Msg) (s : State) : State :=
  if !mayInject s m then s
  else
    let s := soopLeaves m (modIck (fun k => { k with outbox := k.outbox.erase m }) s)
    if !idValid s then logInjref 3 m s
    else if m.vc = 7 ∧ 1 < flitCount m then logInjref 2 m s
    else if m.dest = moduleId s then modIck (fun k => { k with inbox := k.inbox ++ [m] }) s
    else match routePort s m.src m.dest m.vc m.flow with
      | none => logInjref 1 m s
      | some p =>
        let at_ := p.val / 6 * 8 + m.vc
        runRouters (modIck (fun k => { k with feed := mset k.feed at_ (mget [] k.feed at_ ++ flitsOf m) }) (waitGap m s))

end Sys2Proof.Machine
end

