-- ==== Sys2Proof/Machine/CalOps.lean ====
section
/-! DEFINITION. What commands take from and deliver to the calibration slots (R77 to R83, R93). -/
namespace Sys2Proof.Machine

/-- The calibration page, and the low 16 bits of a step as its captures hold them (R93). -/
def calPage : Nat := 0x010
def calCapture (slot step : Nat) : List Nat := [slot + step % 65536 * 2 ^ 16]

/-- A slot; one not listed is as at power-on. -/
def calGet (s : State) (n : Nat) : CalSlot := mget CalSlot.reset s.cal n

/-- The state with a slot changed. -/
def calMod (n : Nat) (f : CalSlot → CalSlot) (s : State) : State := { s with cal := mmod CalSlot.reset s.cal n f }

/-- The slot's mode in force is OFF (R78). A command of a task of an earlier step is judged by the mode now in force, not by
that of its step, which the spec does not say (DESIGN CHOICE, log entry 89). -/
def calOff (s : State) (n : Nat) : Bool := (calGet s n).cfg.mode == 0

/-- The anchor and exponent byte in force in a slot for a step (R80, R192): none while that step's derivation is still to be
done or its agreement is pending; else those that the slot holds of it, or held. Values of any other step are never read. -/
def calValues (s : State) (n step : Nat) : Option (Int × Nat) :=
  let x := calGet s n
  if x.due ∧ x.dueStep = step then none
  else if x.forStep = some step then (if x.pendAgree then none else some (x.anchor, x.ebyte))
  else mfind x.past step

/-- The values of a step are in force in a slot. -/
def calInForce (s : State) (n step : Nat) : Bool := (calValues s n step).isSome

/-- The anchor, and the exponent byte, in force for a step. -/
def calAnchor (s : State) (n step : Nat) : Int := ((calValues s n step).map (·.1)).getD 0
def calEbyte (s : State) (n step : Nat) : Nat := ((calValues s n step).map (·.2)).getD 0

/-- A calibrated command that names an OFF slot is skipped (R78). -/
def logCalOff (slot step : Nat) (s : State) : State := logEvent calPage 4 (calCapture slot step) s

/-- The greater of two orders; no order lies below every order (R82). -/
def maxOrder : Option Int → Option Int → Option Int
  | none, b => b
  | some a, none => some a
  | some a, some b => some (max a b)

/-- An observation of a step is delivered (R81 to R83): combined with the step's, or discarded and logged when its step's
boundary has begun; with no order and no saturation it is no observation. -/
def deliverObs (slot step : Nat) (order : Option Int) (sat : Bool) (s : State) : State :=
  if order.isNone && !sat then s
  else if step ≠ s.bnd.step then chargeClass 0 step (logEvent calPage 3 (calCapture slot step) s)
  else calMod slot (fun x => { x with obs := { order := maxOrder x.obs.order order, sat := x.obs.sat || sat } }) s

end Sys2Proof.Machine
end

