-- ==== Sys2Proof/Machine/ControlCore.lean ====
section
/-! DEFINITION. The control core: issue and its timing (R167), the instructions of R163, skips (R165), pushes (R169 to R171)
and the captures made at a push (R212). -/
namespace Sys2Proof.Machine

/-! ### Scalar registers and issue -/

/-- A scalar register; S0 reads as zero (R158). -/
def sget (k : Core) (r : Nat) : W64 := if r = 0 then 0 else mget (0 : W64) k.ctl.sregs r

/-- The core with a scalar register written; a write to S0 is discarded (R158). -/
def sset (r : Nat) (v : W64) (k : Core) : Core :=
  if r = 0 then k else { k with ctl := { k.ctl with sregs := mput (0 : W64) k.ctl.sregs r v } }

/-- Local addresses of a core's instruction pages and data memory (R231). -/
def ipageBase (c : CoreId) (p : Nat) : Nat := 0xE0020000000 + c.val * 0x40000 + p * 0x10000
def dmemBase (c : CoreId) : Nat := 0xE0020100000 + c.val * 0x10000

/-- The control program of a live task can issue: it runs, stands at an instruction of its page, and waits for nothing
(R167). -/
def Core.canIssue (k : Core) : Bool :=
  k.ctl.running && !k.ctl.ended && decide (k.ctl.pc < 16384) && k.ctl.waitcy.isNone && k.ctl.regWait.isNone &&
    k.ctl.sopWait.isNone && k.live

/-- The cycle in which an instruction that reads these registers issues (R167). -/
def issueAt (k : Core) (reads : List Nat) : Nat := reads.foldl (fun a r => max a (mget 0 k.ctl.ready r)) k.ctl.cyc

/-- An instruction issues after its waits and takes its core cycles: CC_INSTR and CC_STALLS count (R167, R176). -/
def issue (c : CoreId) (reads : List Nat) (cost : Nat) (s : State) : State :=
  let k := s.core c
  let t := issueAt k reads
  let s := setCore c { k with ctl := { k.ctl with cyc := t + cost } } s
  bumpPair (coreP c 0) 0x128 (t - k.ctl.cyc + (cost - 1)) (bumpPair (coreP c 0) 0x118 1 s)

/-- The program counter moves. -/
def setPc (n : Nat) (k : Core) : Core := { k with ctl := { k.ctl with pc := n } }

/-- The next instruction. -/
def nextPc (k : Core) : Core := setPc (k.ctl.pc + 1) k

/-- A result is written, available a latency after its issue (R167). -/
def setRd (rd : Nat) (v : W64) (cost lat : Nat) (k : Core) : Core :=
  let k := sset rd v k
  { k with ctl := { k.ctl with ready := if rd = 0 then k.ctl.ready else mset k.ctl.ready rd (k.ctl.cyc - cost + lat) } }

/-- An instruction acts when the core can issue; an instruction word that is poisoned is consumed instead (R413).
(DESIGN CHOICE, log entry 1.) (DESIGN CHOICE, log entry 49.) -/
def whenIssue (c : CoreId) (f : State → State) (s : State) : State :=
  let k := s.core c
  if k.canIssue then
    (let a := ipageBase c k.ctl.page + 4 * k.ctl.pc
     if poisoned s a 4 then consumeTask c a s else f s)
  else s

/-- The word of the instruction in hand, for the capture of R177: the one that the page holds at PC, with the bits that its
format ignores, when it spells the same command as the word formed from the operands; else the latter. -/
def heldWord (s : State) (c : CoreId) (word : Nat) : Nat :=
  let k := s.core c
  let w := loadN s (ipageBase c k.ctl.page + 4 * k.ctl.pc) 4
  if decodeWord c (BitVec.ofNat 32 w) = decodeWord c (BitVec.ofNat 32 word) then w else word

/-- An instruction is skipped (R4, R165): one core cycle, after the wait for the registers that its case reads, SKIP with its
cause and word, and nothing else. -/
def skipInstr (c : CoreId) (reads : List Nat) (cause word : Nat) (s : State) : State :=
  let k := s.core c
  let word := heldWord s c word
  let s := issue c reads 1 s
  let s := logEvent (coreP c 0) 0 [k.ctl.pc + k.ctl.page * 2 ^ 14 + cause * 2 ^ 16, word] s
  modCore c nextPc s

/-- An instruction that reads registers, computes one result from them and writes rd. -/
def scalarOp (c : CoreId) (reads : List Nat) (cost lat rd : Nat) (f : Core → W64) (s : State) : State :=
  whenIssue c (fun s =>
    let v := f (s.core c)
    modCore c (fun k => nextPc (setRd rd v cost lat k)) (issue c reads cost s)) s

/-- The task's sampling ends with this run (R402). -/
def unsample (k : Core) : Core := modTask (fun t => { t with unsample := true }) k

/-! ### ALU results (R163, R164) -/

/-- High halves of products, and the divisions with their defined corners. -/
def mulHighU (x y : W64) : W64 := BitVec.ofNat 64 (x.toNat * y.toNat / 2 ^ 64)
def mulHighS (x y : W64) : W64 := BitVec.ofInt 64 (x.toInt * y.toInt / 2 ^ 64)
def divS (x y : W64) : W64 := if y = 0 then BitVec.allOnes 64 else x.sdiv y
def divU (x y : W64) : W64 := if y = 0 then BitVec.allOnes 64 else x / y
def remS (x y : W64) : W64 := if y = 0 then x else x.srem y
def remU (x y : W64) : W64 := if y = 0 then x else x % y

/-- 1 or 0. -/
def flag64 (b : Bool) : W64 := if b then 1 else 0

/-- An ALU instruction: rd = f rs1 rs2. -/
def aluOp (c : CoreId) (rd rs1 rs2 : BitVec 6) (cost lat : Nat) (f : W64 → W64 → W64) (s : State) : State :=
  scalarOp c [rs1.toNat, rs2.toNat] cost lat rd.toNat (fun k => f (sget k rs1.toNat) (sget k rs2.toNat)) s

/-- An immediate instruction: rd = f rs1 sext(imm). -/
def immOp (c : CoreId) (rd rs1 : BitVec 6) (imm : BitVec 12) (f : W64 → W64 → W64) (s : State) : State :=
  scalarOp c [rs1.toNat] 1 1 rd.toNat (fun k => f (sget k rs1.toNat) (imm.signExtend 64)) s

/-- NOP (R163). -/
def execNop (c : CoreId) (s : State) : Host.Outcome State Fault Refusal :=
  .next (whenIssue c (fun s => modCore c nextPc (issue c [] 1 s)) s)

/-- ALU fn 0, ADD (R163). -/
def execAluAdd (c : CoreId) (rd rs1 rs2 : BitVec 6) (s : State) : Host.Outcome State Fault Refusal :=
  .next (aluOp c rd rs1 rs2 1 1 (fun x y => x + y) s)

/-- ALU fn 1, SUB (R163). -/
def execAluSub (c : CoreId) (rd rs1 rs2 : BitVec 6) (s : State) : Host.Outcome State Fault Refusal :=
  .next (aluOp c rd rs1 rs2 1 1 (fun x y => x - y) s)

/-- ALU fn 2, AND (R163). -/
def execAluAnd (c : CoreId) (rd rs1 rs2 : BitVec 6) (s : State) : Host.Outcome State Fault Refusal :=
  .next (aluOp c rd rs1 rs2 1 1 (fun x y => x &&& y) s)

/-- ALU fn 3, OR (R163). -/
def execAluOr (c : CoreId) (rd rs1 rs2 : BitVec 6) (s : State) : Host.Outcome State Fault Refusal :=
  .next (aluOp c rd rs1 rs2 1 1 (fun x y => x ||| y) s)

/-- ALU fn 4, XOR (R163). -/
def execAluXor (c : CoreId) (rd rs1 rs2 : BitVec 6) (s : State) : Host.Outcome State Fault Refusal :=
  .next (aluOp c rd rs1 rs2 1 1 (fun x y => x ^^^ y) s)

/-- ALU fn 5, SHL (R163). -/
def execAluShl (c : CoreId) (rd rs1 rs2 : BitVec 6) (s : State) : Host.Outcome State Fault Refusal :=
  .next (aluOp c rd rs1 rs2 1 1 (fun x y => x <<< (y.toNat % 64)) s)

/-- ALU fn 6, SHR (R163). -/
def execAluShr (c : CoreId) (rd rs1 rs2 : BitVec 6) (s : State) : Host.Outcome State Fault Refusal :=
  .next (aluOp c rd rs1 rs2 1 1 (fun x y => x >>> (y.toNat % 64)) s)

/-- ALU fn 7, SAR (R163). -/
def execAluSar (c : CoreId) (rd rs1 rs2 : BitVec 6) (s : State) : Host.Outcome State Fault Refusal :=
  .next (aluOp c rd rs1 rs2 1 1 (fun x y => x.sshiftRight (y.toNat % 64)) s)

/-- ALU fn 8, SLT (R163). -/
def execAluSlt (c : CoreId) (rd rs1 rs2 : BitVec 6) (s : State) : Host.Outcome State Fault Refusal :=
  .next (aluOp c rd rs1 rs2 1 1 (fun x y => flag64 (x.slt y)) s)

/-- ALU fn 9, SLTU (R163). -/
def execAluSltu (c : CoreId) (rd rs1 rs2 : BitVec 6) (s : State) : Host.Outcome State Fault Refusal :=
  .next (aluOp c rd rs1 rs2 1 1 (fun x y => flag64 (x.ult y)) s)

/-- ALU fn 10, MUL (R163). -/
def execAluMul (c : CoreId) (rd rs1 rs2 : BitVec 6) (s : State) : Host.Outcome State Fault Refusal :=
  .next (aluOp c rd rs1 rs2 1 4 (fun x y => x * y) s)

/-- ALU fn 11, MULHU (R163). -/
def execAluMulhu (c : CoreId) (rd rs1 rs2 : BitVec 6) (s : State) : Host.Outcome State Fault Refusal :=
  .next (aluOp c rd rs1 rs2 1 4 (fun x y => mulHighU x y) s)

/-- ALU fn 12, MULH (R163). -/
def execAluMulh (c : CoreId) (rd rs1 rs2 : BitVec 6) (s : State) : Host.Outcome State Fault Refusal :=
  .next (aluOp c rd rs1 rs2 1 4 (fun x y => mulHighS x y) s)

/-- ALU fn 13, DIV (R163, R164). -/
def execAluDiv (c : CoreId) (rd rs1 rs2 : BitVec 6) (s : State) : Host.Outcome State Fault Refusal :=
  .next (aluOp c rd rs1 rs2 66 66 (fun x y => divS x y) s)

/-- ALU fn 14, DIVU (R163, R164). -/
def execAluDivu (c : CoreId) (rd rs1 rs2 : BitVec 6) (s : State) : Host.Outcome State Fault Refusal :=
  .next (aluOp c rd rs1 rs2 66 66 (fun x y => divU x y) s)

/-- ALU fn 15, REM (R163, R164). -/
def execAluRem (c : CoreId) (rd rs1 rs2 : BitVec 6) (s : State) : Host.Outcome State Fault Refusal :=
  .next (aluOp c rd rs1 rs2 66 66 (fun x y => remS x y) s)

/-- ALU fn 16, REMU (R163, R164). -/
def execAluRemu (c : CoreId) (rd rs1 rs2 : BitVec 6) (s : State) : Host.Outcome State Fault Refusal :=
  .next (aluOp c rd rs1 rs2 66 66 (fun x y => remU x y) s)

/-- ALU fn 17, MIN (R163). -/
def execAluMin (c : CoreId) (rd rs1 rs2 : BitVec 6) (s : State) : Host.Outcome State Fault Refusal :=
  .next (aluOp c rd rs1 rs2 1 1 (fun x y => if x.slt y then x else y) s)

/-- ALU fn 18, MAX (R163). -/
def execAluMax (c : CoreId) (rd rs1 rs2 : BitVec 6) (s : State) : Host.Outcome State Fault Refusal :=
  .next (aluOp c rd rs1 rs2 1 1 (fun x y => if x.slt y then y else x) s)

/-- ALU fn 19, MINU (R163). -/
def execAluMinu (c : CoreId) (rd rs1 rs2 : BitVec 6) (s : State) : Host.Outcome State Fault Refusal :=
  .next (aluOp c rd rs1 rs2 1 1 (fun x y => if x.ult y then x else y) s)

/-- ALU fn 20, MAXU (R163). -/
def execAluMaxu (c : CoreId) (rd rs1 rs2 : BitVec 6) (s : State) : Host.Outcome State Fault Refusal :=
  .next (aluOp c rd rs1 rs2 1 1 (fun x y => if x.ult y then y else x) s)

/-- ADDI (R163). -/
def execAddi (c : CoreId) (rd rs1 : BitVec 6) (imm : BitVec 12) (s : State) : Host.Outcome State Fault Refusal :=
  .next (immOp c rd rs1 imm (fun x y => x + y) s)

/-- ANDI (R163). -/
def execAndi (c : CoreId) (rd rs1 : BitVec 6) (imm : BitVec 12) (s : State) : Host.Outcome State Fault Refusal :=
  .next (immOp c rd rs1 imm (fun x y => x &&& y) s)

/-- ORI (R163). -/
def execOri (c : CoreId) (rd rs1 : BitVec 6) (imm : BitVec 12) (s : State) : Host.Outcome State Fault Refusal :=
  .next (immOp c rd rs1 imm (fun x y => x ||| y) s)

/-- XORI (R163). -/
def execXori (c : CoreId) (rd rs1 : BitVec 6) (imm : BitVec 12) (s : State) : Host.Outcome State Fault Refusal :=
  .next (immOp c rd rs1 imm (fun x y => x ^^^ y) s)

/-- SHLI (R163). -/
def execShli (c : CoreId) (rd rs1 : BitVec 6) (imm : BitVec 12) (s : State) : Host.Outcome State Fault Refusal :=
  .next (immOp c rd rs1 imm (fun x y => x <<< (y.toNat % 64)) s)

/-- SHRI (R163). -/
def execShri (c : CoreId) (rd rs1 : BitVec 6) (imm : BitVec 12) (s : State) : Host.Outcome State Fault Refusal :=
  .next (immOp c rd rs1 imm (fun x y => x >>> (y.toNat % 64)) s)

/-- SARI (R163). -/
def execSari (c : CoreId) (rd rs1 : BitVec 6) (imm : BitVec 12) (s : State) : Host.Outcome State Fault Refusal :=
  .next (immOp c rd rs1 imm (fun x y => x.sshiftRight (y.toNat % 64)) s)

/-- SLTI (R163). -/
def execSlti (c : CoreId) (rd rs1 : BitVec 6) (imm : BitVec 12) (s : State) : Host.Outcome State Fault Refusal :=
  .next (immOp c rd rs1 imm (fun x y => flag64 (x.slt y)) s)

/-- LI: rd = sext(imm18) (R163). -/
def execLi (c : CoreId) (rd : BitVec 6) (imm : BitVec 18) (s : State) : Host.Outcome State Fault Refusal :=
  .next (scalarOp c [] 1 1 rd.toNat (fun _ => imm.signExtend 64) s)

/-- LUS: rd shifted left by 16, with imm18 [15:0] below (R163). -/
def execLus (c : CoreId) (rd : BitVec 6) (imm : BitVec 18) (s : State) : Host.Outcome State Fault Refusal :=
  .next (scalarOp c [rd.toNat] 1 1 rd.toNat
    (fun k => (sget k rd.toNat <<< 16) ||| BitVec.ofNat 64 (imm.toNat % 65536)) s)

/-! ### Data memory -/

/-- The data-memory address of a load or store. -/
def memAddr (k : Core) (rs1 : BitVec 6) (imm : BitVec 12) : Nat := (sget k rs1.toNat + imm.signExtend 64).toNat

/-- Not aligned to n bytes, or past the end of data memory (R165 cause 2). -/
def badDmem (a n : Nat) : Bool := decide (a % n ≠ 0 ∨ 65536 < a + n)

/-- A load of n bytes (R163): rd = ext of the number read; poison is consumed (R413). -/
def loadOp (c : CoreId) (op : Nat) (rd rs1 : BitVec 6) (imm : BitVec 12) (n : Nat) (ext : Nat → W64) (s : State) : State :=
  whenIssue c (fun s =>
    let a := memAddr (s.core c) rs1 imm
    if badDmem a n then skipInstr c [rs1.toNat] 2 (wordI op rd.toNat rs1.toNat imm.toNat) s
    else if poisoned s (dmemBase c + a) n then consumeTask c (dmemBase c + a) s
    else
      let v := ext (loadN s (dmemBase c + a) n)
      modCore c (fun k => nextPc (setRd rd.toNat v 1 3 k)) (issue c [rs1.toNat] 1 s)) s

/-- A store of the low n bytes of rt (R161, R163), a local write of its task (R404). -/
def storeOp (c : CoreId) (op : Nat) (rt rs1 : BitVec 6) (imm : BitVec 12) (n : Nat) (s : State) : State :=
  whenIssue c (fun s =>
    let a := memAddr (s.core c) rs1 imm
    if badDmem a n then skipInstr c [rs1.toNat] 2 (wordI op rt.toNat rs1.toNat imm.toNat) s
    else
      let v := (sget (s.core c) rt.toNat).toNat
      let s := storeN (dmemBase c + a) n v (issue c [rt.toNat, rs1.toNat] 1 s)
      modCore c nextPc (noteWrite c (dmemBase c + a) (bytesOfNat n v) s)) s

/-- LB: one byte, sign-extended (R163). -/
def execLb (c : CoreId) (rd rs1 : BitVec 6) (imm : BitVec 12) (s : State) : Host.Outcome State Fault Refusal :=
  .next (loadOp c 0x30 rd rs1 imm 1 (fun v => (BitVec.ofNat 8 v).signExtend 64) s)

/-- LBU: one byte, zero-extended (R163). -/
def execLbu (c : CoreId) (rd rs1 : BitVec 6) (imm : BitVec 12) (s : State) : Host.Outcome State Fault Refusal :=
  .next (loadOp c 0x31 rd rs1 imm 1 (fun v => BitVec.ofNat 64 v) s)

/-- LH: two bytes, sign-extended (R163). -/
def execLh (c : CoreId) (rd rs1 : BitVec 6) (imm : BitVec 12) (s : State) : Host.Outcome State Fault Refusal :=
  .next (loadOp c 0x32 rd rs1 imm 2 (fun v => (BitVec.ofNat 16 v).signExtend 64) s)

/-- LHU: two bytes, zero-extended (R163). -/
def execLhu (c : CoreId) (rd rs1 : BitVec 6) (imm : BitVec 12) (s : State) : Host.Outcome State Fault Refusal :=
  .next (loadOp c 0x33 rd rs1 imm 2 (fun v => BitVec.ofNat 64 v) s)

/-- LW: four bytes, sign-extended (R163). -/
def execLw (c : CoreId) (rd rs1 : BitVec 6) (imm : BitVec 12) (s : State) : Host.Outcome State Fault Refusal :=
  .next (loadOp c 0x34 rd rs1 imm 4 (fun v => (BitVec.ofNat 32 v).signExtend 64) s)

/-- LWU: four bytes, zero-extended (R163). -/
def execLwu (c : CoreId) (rd rs1 : BitVec 6) (imm : BitVec 12) (s : State) : Host.Outcome State Fault Refusal :=
  .next (loadOp c 0x35 rd rs1 imm 4 (fun v => BitVec.ofNat 64 v) s)

/-- LD: eight bytes (R163). -/
def execLd (c : CoreId) (rd rs1 : BitVec 6) (imm : BitVec 12) (s : State) : Host.Outcome State Fault Refusal :=
  .next (loadOp c 0x36 rd rs1 imm 8 (fun v => BitVec.ofNat 64 v) s)

/-- SB: the low 1 byte of rt (R161, R163). -/
def execSb (c : CoreId) (rt rs1 : BitVec 6) (imm : BitVec 12) (s : State) : Host.Outcome State Fault Refusal :=
  .next (storeOp c 0x38 rt rs1 imm 1 s)

/-- SH: the low 2 bytes of rt (R161, R163). -/
def execSh (c : CoreId) (rt rs1 : BitVec 6) (imm : BitVec 12) (s : State) : Host.Outcome State Fault Refusal :=
  .next (storeOp c 0x39 rt rs1 imm 2 s)

/-- SW: the low 4 bytes of rt (R161, R163). -/
def execSw (c : CoreId) (rt rs1 : BitVec 6) (imm : BitVec 12) (s : State) : Host.Outcome State Fault Refusal :=
  .next (storeOp c 0x3A rt rs1 imm 4 s)

/-- SD: the low 8 bytes of rt (R161, R163). -/
def execSd (c : CoreId) (rt rs1 : BitVec 6) (imm : BitVec 12) (s : State) : Host.Outcome State Fault Refusal :=
  .next (storeOp c 0x3B rt rs1 imm 8 s)

/-! ### Branches and jumps (R163, R165 cause 3) -/

/-- PC plus a signed offset. -/
def target (k : Core) (off : Int) : Int := (k.ctl.pc : Int) + off

/-- A target outside 0 to 16,383. -/
def badTarget (t : Int) : Bool := decide (t < 0 ∨ 16383 < t)

/-- A branch: taken in three core cycles when the condition holds, else one (R167). -/
def branchOp (c : CoreId) (op : Nat) (rs1 rs2 : BitVec 6) (off : BitVec 12) (p : W64 → W64 → Bool) (s : State) : State :=
  whenIssue c (fun s =>
    let k := s.core c
    let t := target k off.toInt
    if badTarget t then skipInstr c [] 3 (wordI op rs1.toNat rs2.toNat off.toNat) s
    else if p (sget k rs1.toNat) (sget k rs2.toNat) then
      modCore c (setPc t.toNat) (issue c [rs1.toNat, rs2.toNat] 3 s)
    else modCore c nextPc (issue c [rs1.toNat, rs2.toNat] 1 s)) s

/-- BEQ (R163). -/
def execBeq (c : CoreId) (rs1 rs2 : BitVec 6) (off : BitVec 12) (s : State) : Host.Outcome State Fault Refusal :=
  .next (branchOp c 0x40 rs1 rs2 off (fun x y => x == y) s)

/-- BNE (R163). -/
def execBne (c : CoreId) (rs1 rs2 : BitVec 6) (off : BitVec 12) (s : State) : Host.Outcome State Fault Refusal :=
  .next (branchOp c 0x41 rs1 rs2 off (fun x y => x != y) s)

/-- BLT (R163). -/
def execBlt (c : CoreId) (rs1 rs2 : BitVec 6) (off : BitVec 12) (s : State) : Host.Outcome State Fault Refusal :=
  .next (branchOp c 0x42 rs1 rs2 off (fun x y => x.slt y) s)

/-- BGE (R163). -/
def execBge (c : CoreId) (rs1 rs2 : BitVec 6) (off : BitVec 12) (s : State) : Host.Outcome State Fault Refusal :=
  .next (branchOp c 0x43 rs1 rs2 off (fun x y => !(x.slt y)) s)

/-- BLTU (R163). -/
def execBltu (c : CoreId) (rs1 rs2 : BitVec 6) (off : BitVec 12) (s : State) : Host.Outcome State Fault Refusal :=
  .next (branchOp c 0x44 rs1 rs2 off (fun x y => x.ult y) s)

/-- BGEU (R163). -/
def execBgeu (c : CoreId) (rs1 rs2 : BitVec 6) (off : BitVec 12) (s : State) : Host.Outcome State Fault Refusal :=
  .next (branchOp c 0x45 rs1 rs2 off (fun x y => !(x.ult y)) s)

/-- JAL: rd = PC + 1; PC = PC + sext(off18) (R163). -/
def execJal (c : CoreId) (rd : BitVec 6) (off : BitVec 18) (s : State) : Host.Outcome State Fault Refusal :=
  .next (whenIssue c (fun s =>
    let k := s.core c
    let t := target k off.toInt
    if badTarget t then skipInstr c [] 3 (wordJ 0x48 rd.toNat off.toNat) s
    else
      modCore c (fun k => setPc t.toNat (setRd rd.toNat (BitVec.ofNat 64 (k.ctl.pc + 1)) 3 1 k)) (issue c [] 3 s)) s)

/-- JALR: rd = PC + 1; PC = (rs1 + sext(imm12)) [13:0] (R163). -/
def execJalr (c : CoreId) (rd rs1 : BitVec 6) (imm : BitVec 12) (s : State) : Host.Outcome State Fault Refusal :=
  .next (whenIssue c (fun s =>
    let t := memAddr (s.core c) rs1 imm % 16384
    modCore c (fun k => setPc t (setRd rd.toNat (BitVec.ofNat 64 (k.ctl.pc + 1)) 3 1 k)) (issue c [rs1.toNat] 3 s)) s)

/-! ### Queues (R162, R169 to R171, R178, R179, R212) -/

/-- The entries of a queue, its capacity and its count of accepted commands. -/
def queueOf (k : Core) : Queue → List QEntry
  | .matrix => k.queues.matrix
  | .vector => k.queues.vector
  | .dma => k.queues.dma
  | .reduce => k.queues.reduce
def capacity : Queue → Nat
  | .matrix => 256
  | .vector => 256
  | .dma => 128
  | .reduce => 64
def acceptedOf (k : Core) : Queue → Nat
  | .matrix => k.queues.accM
  | .vector => k.queues.accV
  | .dma => k.queues.accD
  | .reduce => k.queues.accR

/-- The core with an entry at the back of a queue, counted. -/
def enqueueCmd (q : Queue) (e : QEntry) (k : Core) : Core :=
  match q with
  | .matrix => { k with queues := { k.queues with matrix := k.queues.matrix ++ [e], accM := k.queues.accM + 1 } }
  | .vector => { k with queues := { k.queues with vector := k.queues.vector ++ [e], accV := k.queues.accV + 1 } }
  | .dma => { k with queues := { k.queues with dma := k.queues.dma ++ [e], accD := k.queues.accD + 1 } }
  | .reduce => { k with queues := { k.queues with reduce := k.queues.reduce ++ [e], accR := k.queues.accR + 1 } }

/-- The tile registers a command reads or writes through, each with whether it reads and whether it writes (R212). -/
def throughs (s : State) (c : CoreId) (q : Queue) (w : BitVec 128) : List (Nat × Bool × Bool) :=
  let op := cmdOp w
  match q with
  | .matrix =>
    if op = 1 then [(cmdBits w 39 32, true, false)]
    else if op = 2 then
      (cmdBits w 39 32, true, false) :: (if cmdBits w 49 48 = 0 then [] else [(cmdBits w 47 40, true, false)])
    else []
  | .vector =>
    if op = 0x80 then [(cmdBits w 71 64, true, false)]
    else if op = 0x81 ∨ op = 0x41 ∨ op = 0x42 ∨ (op = 0x43 ∧ cmdBits w 124 123 = 2) then [(cmdBits w 71 64, false, true)]
    else []
  | .dma =>
    if op = 1 then
      let a := dmemBase c + 64 * cmdBits w 57 48
      let m := loadN s a 4
      (if bitsOf m 1 0 = 1 then [(loadN s (a + 0x10) 1, true, false)] else []) ++
      (if bitsOf m 3 2 = 1 then [(loadN s (a + 0x18) 1, false, true)] else [])
    else []
  | .reduce => if op = 1 ∨ op = 2 then [(cmdBits w 57 50, true, false)] else []

/-- The captures of one push: GEN_t as it stands for a read, GEN_t advanced for a write; reads come first (R212). -/
def capture (s : State) (c : CoreId) : List (Nat × Bool × Bool) → Map Nat × Map Nat × Core → Map Nat × Map Nat × Core
  | [], r => r
  | (t, rd, _) :: rest, (rc, wc, k) =>
    if !(treg s c t).gt then capture s c rest (rc, wc, k)
    else if rd then capture s c rest (mset rc t (genOf k t), wc, k)
    else
      let g := (genOf k t + 1) % 16
      let k := { k with sched := { k.sched with gens := mput 0 k.sched.gens t g } }
      capture s c rest (rc, mset wc t g, k)

/-- The running task's page, when CLOSING, becomes OPEN (R173). -/
def releasePage (k : Core) : Core :=
  if mget PageState.opened k.ctl.pages k.ctl.page = .closing then
    { k with ctl := { k.ctl with pages := mdel k.ctl.pages k.ctl.page } }
  else k

/-- The task is over: no task runs on the core, and a CLOSING page becomes OPEN (R173). -/
def endTask (k : Core) : Core :=
  let k := releasePage k
  { k with
    ctl := { k.ctl with running := false, ended := false, waitcy := none, regWait := none, sopWait := none }
    sched := { k.sched with task := none } }

/-- A failed replay's engines are idle: its slot goes to FAILED, with GUARDFAIL (R216). -/
def endReplay (c : CoreId) (s : State) : State :=
  match (s.core c).sched.task with
  | none => s
  | some t =>
    match t.halt with
    | .failed case =>
      if enginesIdle s c then
        let s := modCore c (fun k => setSlot t.slot 5 (endTask k)) s
        chargeClass 4 t.step (logEvent (coreP c 1) 1 [t.slot + case * 2 ^ 12] s)
      else s
    | .no => s
    | .fault => s
    | .cancel => s

/-- A guarded replay fails (R216), with GUARDFAIL's case: its task stops as on a cancel, and its slot is CANCELLING until every
engine of the core is idle. SCH_CANCELS does not count it (DESIGN CHOICE, log entry 101). -/
def failReplay (c : CoreId) (case : Nat) (s : State) : State :=
  match (s.core c).sched.task with
  | none => s
  | some t =>
    let s := abandonCheck c t (stopCore c s)
    endReplay c (modCore c (fun k => setSlot t.slot 4 (modTask (fun t => { t with halt := .failed case }) k)) s)

/-- A push that meets a full queue: dropped, QDROP, rd = 0; in guarded replay the replay fails (R170, R216). -/
def dropPush (c : CoreId) (q : Queue) (rd : BitVec 6) (cost : Nat) (s : State) : State :=
  let k := s.core c
  let s := modCore c (fun k => nextPc (setRd rd.toNat 0 cost 1 k)) s
  let s := logEvent (coreP c 0) 1 [k.ctl.pc + k.ctl.page * 2 ^ 14 + q.code * 2 ^ 16] s
  let s := chargeClass 4 ((k.sched.task.map (·.step)).getD s.bnd.step) s
  if k.guarded then failReplay c 1 s else s

/-- The task that pushes its first matrix command is no vector task (R402). -/
def notVector (k : Core) : Core :=
  match k.sched.task with
  | some t => if t.matrix then k else { k with sched := { k.sched with vectorTasks := k.sched.vectorTasks - 1 } }
  | none => k

/-- A push that is accepted: captures, entry, rd = 1, CC_PUSHES (R170, R176, R179, R212). Its rd may be read one core cycle after
its issue; R167 states no latency for it (DESIGN CHOICE, log entry 85). A first matrix command takes its task out of the count of
vector tasks (R402). -/
def acceptPush (c : CoreId) (q : Queue) (rd : BitVec 6) (w : BitVec 128) (cost : Nat) (s : State) : State :=
  let k := s.core c
  let r := capture s c (throughs s c q w) ([], [], k)
  let seq := match k.sched.task with
    | some t => t.pushes
    | none => 0
  let e : QEntry := { word := w, idx := acceptedOf k q % capacity q, seq := seq, rcap := r.1, wcap := r.2.1 }
  let k := enqueueCmd q e r.2.2
  let k := modTask (fun t =>
      { t with pushes := t.pushes + 1, matrix := t.matrix || q == .matrix, sampled := t.sampled && q != .matrix })
      (if q = .matrix then notVector k else k)
  bumpPair (coreP c 0) 0x120 1 (setCore c (nextPc (setRd rd.toNat 1 cost 1 k)) s)

/-- The word pushed: bits [127:96] replaced when F = 1 (R169). -/
def pushWord (w : Nat) (f : Bool) (v : W64) : BitVec 128 :=
  BitVec.ofNat 128 (if f then w % 2 ^ 96 + v.toNat % 2 ^ 32 * 2 ^ 96 else w)

/-- A push of a word, after its skip checks. -/
def pushOp (c : CoreId) (q : Queue) (rd : BitVec 6) (w : BitVec 128) (cost : Nat) (s : State) : State :=
  if (queueOf (s.core c) q).length < capacity q then acceptPush c q rd w cost s else dropPush c q rd cost s

/-- PUSH: the command in a register pair (R163, R165, R169, R170). -/
def execPush (c : CoreId) (q : Queue) (f : Bool) (rd rs1 rs2 : BitVec 6) (s : State) : Host.Outcome State Fault Refusal :=
  .next (whenIssue c (fun s =>
    let k := s.core c
    let word := wordQ 0x50 rd.toNat rs1.toNat rs2.toNat q f
    if f && q != .vector then skipInstr c [] 5 word s
    else if rs1.toNat = 63 then skipInstr c [] 6 word s
    else
      let w := (sget k rs1.toNat).toNat + 2 ^ 64 * (sget k (rs1.toNat + 1)).toNat
      let reads := [rs1.toNat, rs1.toNat + 1] ++ (if f then [rs2.toNat] else [])
      pushOp c q rd (pushWord w f (sget k rs2.toNat)) 1 (issue c reads 1 s)) s)

/-- PUSHM: the 16 bytes of data memory at rs1 (R163, R165, R169, R170). -/
def execPushm (c : CoreId) (q : Queue) (f : Bool) (rd rs1 rs2 : BitVec 6) (s : State) : Host.Outcome State Fault Refusal :=
  .next (whenIssue c (fun s =>
    let k := s.core c
    let word := wordQ 0x51 rd.toNat rs1.toNat rs2.toNat q f
    let a := (sget k rs1.toNat).toNat
    if badDmem a 16 then skipInstr c [rs1.toNat] 2 word s
    else if f && q != .vector then skipInstr c [rs1.toNat] 5 word s
    else if poisoned s (dmemBase c + a) 16 then consumeTask c (dmemBase c + a) s
    else
      let w := loadN s (dmemBase c + a) 16
      let reads := rs1.toNat :: (if f then [rs2.toNat] else [])
      pushOp c q rd (pushWord w f (sget k rs2.toNat)) 2 (issue c reads 2 s)) s)

/-- QDEPTH: the occupancy of a queue (R171). -/
def execQdepth (c : CoreId) (q : Queue) (rd : BitVec 6) (s : State) : Host.Outcome State Fault Refusal :=
  .next (scalarOp c [] 1 2 rd.toNat (fun k => BitVec.ofNat 64 (queueOf k q).length) s)

/-! ### Synchronisation-object operations (R218, R220) -/

/-- A SOP issues; its result returns later (R167). -/
def sopIssue (c : CoreId) (reads : List Nat) (rd : BitVec 6) (v : W64) (s : State) : State :=
  modCore c (fun k => { k with ctl := { k.ctl with sopWait := some (rd.toNat, v) } }) (issue c reads 1 s)

/-- SOP fn 0: READ returns the value (R220), and the task is not sampled (R402). -/
def execSopRead (c : CoreId) (rd rs1 _rs2 : BitVec 6) (s : State) : Host.Outcome State Fault Refusal :=
  .next (whenIssue c (fun s =>
    let v := objGet s ((sget (s.core c) rs1.toNat).toNat % 2 ^ 17)
    modCore c unsample (sopIssue c [rs1.toNat] rd v s)) s)

/-- SOP fn 1: ADD is held to commit, and rd receives 0 (R218, R220). -/
def execSopAdd (c : CoreId) (rd rs1 rs2 : BitVec 6) (s : State) : Host.Outcome State Fault Refusal :=
  .next (whenIssue c (fun s =>
    let k := s.core c
    let op := HeldOp.add ((sget k rs1.toNat).toNat % 2 ^ 17) (sget k rs2.toNat)
    recordHeld c op (sopIssue c [rs1.toNat, rs2.toNat] rd 0 s)) s)

/-- SOP fn 2: SET is held to commit, and rd receives 0 (R218, R220). -/
def execSopSet (c : CoreId) (rd rs1 rs2 : BitVec 6) (s : State) : Host.Outcome State Fault Refusal :=
  .next (whenIssue c (fun s =>
    let k := s.core c
    let op := HeldOp.set ((sget k rs1.toNat).toNat % 2 ^ 17) (sget k rs2.toNat)
    recordHeld c op (sopIssue c [rs1.toNat, rs2.toNat] rd 0 s)) s)

/-- Cycles pass while no instruction issues: CC_STALLS counts them (R176). -/
def stallCycles (c : CoreId) (n : Nat) (s : State) : State :=
  bumpPair (coreP c 0) 0x128 n (modCore c (fun k => { k with ctl := { k.ctl with cyc := k.ctl.cyc + n } }) s)

/-- The result of a SOP returns, at most 40 core cycles after its issue, and is written to rd (R167). -/
def execSopReturn (c : CoreId) (cycles : Nat) (s : State) : Host.Outcome State Fault Refusal :=
  match (s.core c).ctl.sopWait with
  | none => .next s
  | some (rd, v) =>
    let s := stallCycles c (min cycles 40 - 1) s
    .next (modCore c (fun k => nextPc (sset rd v { k with ctl := { k.ctl with sopWait := none } })) s)

/-! ### Waiting, time and the end of a program -/

/-- WAITCY: a wait begins; in guarded replay it is omitted (R165 cause 7, R167, R175). -/
def execWaitcy (c : CoreId) (imm : BitVec 18) (s : State) : Host.Outcome State Fault Refusal :=
  .next (whenIssue c (fun s =>
    if (s.core c).guarded then skipInstr c [] 7 (wordJ 0x60 0 imm.toNat) s
    else modCore c (fun k => { k with ctl := { k.ctl with waitcy := some imm.toNat } }) (issue c [] 1 s)) s)

/-- The WAITCY count runs out: max(1, n) core cycles have passed since its issue, none counted as a stall (R167, R176). -/
def execWaitcyExpire (c : CoreId) (s : State) : Host.Outcome State Fault Refusal :=
  match (s.core c).ctl.waitcy with
  | none => .next s
  | some n =>
    .next (modCore c (fun k => nextPc { k with ctl := { k.ctl with waitcy := none, cyc := k.ctl.cyc + (max 1 n - 1) } }) s)

/-- RDCYC: core cycles since the task's first instruction (R163); the task is not sampled (R402). -/
def execRdcyc (c : CoreId) (rd : BitVec 6) (s : State) : Host.Outcome State Fault Refusal :=
  .next (scalarOp c [] 1 1 rd.toNat (fun k => BitVec.ofNat 64 k.ctl.cyc)
    (if (s.core c).canIssue then modCore c unsample s else s))

/-- The control program is over; the task's engines finish (R163, R176). -/
def endProgram (k : Core) : Core := { k with ctl := { k.ctl with running := false, ended := true } }

/-- TEND (R163). -/
def execTend (c : CoreId) (s : State) : Host.Outcome State Fault Refusal :=
  .next (whenIssue c (fun s => modCore c endProgram (issue c [] 1 s)) s)

/-- A word with a reserved opcode or fn is skipped with cause 1 (R163, R165); any other word is not this step. -/
def execReservedOpcode (c : CoreId) (word : BitVec 32) (s : State) : Host.Outcome State Fault Refusal :=
  .next (whenIssue c (fun s => if reservedWord word.toNat then skipInstr c [] 1 word.toNat s else s) s)

/-- Execution has run past instruction 16,383: the program ends as TEND ends it, and PCEND is logged (R166). -/
def execPcend (c : CoreId) (s : State) : Host.Outcome State Fault Refusal :=
  let k := s.core c
  .next (if k.ctl.running && decide (16384 ≤ k.ctl.pc) && k.live then
    logEvent (coreP c 0) 3 [k.ctl.page] (modCore c endProgram s) else s)

end Sys2Proof.Machine
end

