-- ==== Sys2Proof/Machine/QueueOps.lean ====
section
/-! DEFINITION. What the four engines share when they take commands (R180, R181, R192, R201, R215), and the states of the
groups that every engine meets (R62, R66). -/
namespace Sys2Proof.Machine

/-- Every entry still in a core's queues. -/
def allEntries (k : Core) : List QEntry := k.queues.matrix ++ k.queues.vector ++ k.queues.dma ++ k.queues.reduce

/-- In guarded replay a command waits for every command pushed earlier (R215). -/
def replayClear (k : Core) (e : QEntry) : Bool :=
  !k.guarded || ((allEntries k).all (fun x => decide (e.seq ≤ x.seq)) && k.queues.flights.all (fun x => decide (e.seq ≤ x.seq)))

/-- The core without the head of a queue. -/
def popQueue (q : Queue) (k : Core) : Core :=
  match q with
  | .matrix => { k with queues := { k.queues with matrix := k.queues.matrix.tail } }
  | .vector => { k with queues := { k.queues with vector := k.queues.vector.tail } }
  | .dma => { k with queues := { k.queues with dma := k.queues.dma.tail } }
  | .reduce => { k with queues := { k.queues with reduce := k.queues.reduce.tail } }

/-- The head of a queue leaves it and is counted as taken (R180, R202). -/
def popHead (c : CoreId) (q : Queue) (s : State) : State :=
  bumpPair (coreP c 2) (0x108 + 8 * q.code) 1 (modCore c (popQueue q) s)

/-- An engine takes the command at the head of its queue when its take condition holds: f is what the command then does. -/
def takeWhen (c : CoreId) (q : Queue) (cond : QEntry → Bool) (f : QEntry → State → State) (s : State) : State :=
  let k := s.core c
  match (queueOf k q).head? with
  | none => s
  | some e => if k.live && replayClear k e && cond e then f e (popHead c q s) else s

/-- The command at the head has this OP. -/
def opIs (n : Nat) (e : QEntry) : Bool := cmdOp e.word == n

/-- A taken command as a flight. -/
def flightOf (q : Queue) (e : QEntry) : Flight := { seq := e.seq, queue := q.code, idx := e.idx, sig := cmdSig e.word }

/-- A command goes into execution. -/
def addFlight (c : CoreId) (fl : Flight) (s : State) : State :=
  modCore c (fun k => { k with queues := { k.queues with flights := k.queues.flights ++ [fl] } }) s

/-- A command that completes when taken (R181). -/
def completeNow (c : CoreId) (q : Queue) (e : QEntry) (s : State) : State := completeFlight c (flightOf q e) 1 s

/-- A reserved OP: skipped, with BADOP (R201 check 1, R203). -/
def logBadop (c : CoreId) (q : Queue) (e : QEntry) (s : State) : State :=
  logEvent (coreP c 2) 0 [q.code + e.idx * 2 ^ 8 + cmdOp e.word * 2 ^ 16] s

/-- The step of the core's task (R80). -/
def taskStep (s : State) (c : CoreId) : Nat := ((s.core c).sched.task.map (·.step)).getD s.bnd.step

/-- A group of a core. -/
def groupOf (k : Core) (g : Nat) : Group := k.groups.get (Fin.ofNat 4 g)

/-- The core with a group changed. -/
def modGroup (g : Nat) (f : Group → Group) (k : Core) : Core :=
  { k with groups := k.groups.set (g % 4) (f (groupOf k g)) (Nat.mod_lt _ (by decide)) }

/-- SKIP on the accumulator page (R71). -/
def logGroupSkip (c : CoreId) (e : QEntry) (s : State) : State := logEvent (coreP c 4) 4 [e.idx] s

/-- A line read by a tagged command carries the tag the command captured (R212, R213). -/
def linesOk (k : Core) (t : Nat) (tag : Option Nat) (lines : List Nat) : Bool :=
  match tag with
  | none => true
  | some g => lines.all (fun l => tagOf k t l == g)

end Sys2Proof.Machine
end

