-- ==== Sys2Proof/Machine/GroupOps.lean ====
section
/-! DEFINITION. Exact accumulation: block products (R52, R58), alignment (R54), cells (R49, R55, R60, R61), check lines
(R67 to R69), and the closing of a group (R65, R72). -/
namespace Sys2Proof.Machine

/-! ### Block products -/

/-- A block product with no pair yet. -/
def Partial.empty : Partial := { p := 0, w := 0, finite := false, nan := false, pinf := false, ninf := false }

/-- The classes of an element of an n-bit operand (R31, R52). -/
def elemNan (n : Nat) (x : Elem) : Bool := x.m == nanCode n
def elemInf (n : Nat) (x : Elem) : Bool := x.e == 255 && x.m != 0 && !elemNan n x

/-- The weight of a pair (R52). -/
def pairWeight (na nb : Nat) (a b : Elem) : Int :=
  ((a.e : Int) - 127) + ((b.e : Int) - 127) - ((na : Int) - 1) - ((nb : Int) - 1)

/-- A block product with one more pair (R52, R58). The weight is that of its non-zero finite pairs, which all share it. -/
def addPair (na nb : Nat) (a b : Elem) (x : Partial) : Partial :=
  if elemNan na a || elemNan nb b then { x with nan := true }
  else if elemInf na a || elemInf nb b then
    if a.m = 0 ∨ b.m = 0 then { x with nan := true }
    else if decide (a.m < 0) = decide (b.m < 0) then { x with pinf := true } else { x with ninf := true }
  else
    { x with p := x.p + a.m * b.m, w := if a.m * b.m = 0 then x.w else pairWeight na nb a b, finite := true }

/-- A contribution on the grid (R54). -/
structure Aligned where
  c : Int
  rounded : Bool
  clamp : Bool
  deriving DecidableEq, Repr

/-- m × 2^d rounded once to a whole number, ties to even (R54, R67), and whether it was rounded. -/
def gridRound (m d : Int) : Int × Bool :=
  if 0 ≤ d then (m * 2 ^ d.toNat, false)
  else
    let q := roundAt false m.natAbs d
    (if m < 0 then -(q : Int) else (q : Int), decide (m % 2 ^ (-d).toNat ≠ 0))

/-- Alignment to the group's grid: the single rounding and the clamp (R54). -/
def align (p w anchor : Int) : Aligned :=
  let r := gridRound p (w - anchor)
  let lim : Int := 2 ^ 63 - 1
  if lim < r.1.natAbs then { c := if r.1 < 0 then -lim else lim, rounded := r.2, clamp := true }
  else { c := r.1, rounded := r.2, clamp := false }

/-! ### Cells -/

/-- A zero cell (R64). -/
def Cell.zero : Cell := { value := 0, state := 0, index := 0 }

/-- A field of the state word (R49). -/
def Cell.flag (x : Cell) (k : Nat) : Bool := x.state.getLsbD k

/-- The exact sum of a SUM cell (R50). -/
def Cell.sum (x : Cell) : Int := x.value.toInt + 2 ^ 64 * signedOf 25 x.state.toNat

/-- The state word with sticky bits set: CLAMP, FOUND, NAN, PINF, NINF. -/
def stickState (w : Nat) (clamp found nan pinf ninf : Bool) : Nat :=
  let on := fun (b : Bool) (k w : Nat) => if b then putBits w k k 1 else w
  on clamp 25 (on found 26 (on nan 27 (on pinf 28 (on ninf 29 w))))

/-- The rank of the highest non-finite class (R61). -/
def classRank (isMin nan pinf ninf : Bool) : Nat :=
  if nan then 3 else if isMin then (if ninf then 2 else if pinf then 1 else 0) else (if pinf then 2 else if ninf then 1 else 0)

/-- A SUM cell after a contribution (R55). -/
def Cell.addSum (x : Cell) (b : Partial) (a : Aligned) : Cell :=
  let s := x.sum + (if b.finite then a.c else 0)
  let v := BitVec.ofInt 64 s
  let xs := codeOf 25 ((s - v.toInt) / 2 ^ 64)
  { x with
    value := v
    state := BitVec.ofNat 32 (stickState (putBits x.state.toNat 24 0 xs) (b.finite && a.clamp) false b.nan b.pinf b.ninf) }

/-- A MAX or MIN cell after a contribution of step t (R60, R61). -/
def Cell.compete (isMin : Bool) (t : Nat) (x : Cell) (b : Partial) (a : Aligned) : Cell :=
  let old := classRank isMin (x.flag 27) (x.flag 28) (x.flag 29)
  let new := classRank isMin b.nan b.pinf b.ninf
  let idx := x.index.toNat % 2 ^ 20
  let idx := if new = 0 ∨ new < old then idx else if old < new then t else min idx t
  let won := x.state.toNat % 2 ^ 20
  let v := x.value.toInt
  let better := if isMin then decide (a.c < v) else decide (v < a.c)
  let takes := b.finite && (!x.flag 26 || better || (a.c == v && decide (t < won)))
  let w := if takes then putBits x.state.toNat 19 0 t else x.state.toNat
  { value := if takes then BitVec.ofInt 64 a.c else x.value
    state := BitVec.ofNat 32 (stickState w (b.finite && a.clamp) b.finite b.nan b.pinf b.ninf)
    index := BitVec.ofNat 32 idx }

/-- How a cell reads (R59, R61): NaN, an infinity, or a finite whole number; an empty MAX or MIN cell reads as an
infinity. -/
inductive CellRead where
  | nan
  | inf (neg : Bool)
  | empty (neg : Bool)
  | fin (v : Int)
  deriving DecidableEq, Repr

/-- The reading of a cell in a group of a mode (R57, R59, R61). -/
def Cell.read (mode : Nat) (x : Cell) : CellRead :=
  let nan := x.flag 27
  let pinf := x.flag 28
  let ninf := x.flag 29
  if mode = 0 then
    if nan || (pinf && ninf) then .nan
    else if pinf then .inf false
    else if ninf then .inf true
    else .fin (max (-(2 ^ 63 - 1)) (min x.sum (2 ^ 63 - 1)))
  else
    let isMin := mode == 2
    if nan then .nan
    else if (if isMin then ninf else pinf) then .inf isMin
    else if x.flag 26 then .fin x.value.toInt
    else if (if isMin then pinf else ninf) then .inf (!isMin)
    else .empty (!isMin)

/-- OVF of a cell (R57, R61). -/
def Cell.ovf (mode : Nat) (x : Cell) : Bool := x.flag 25 || (mode == 0 && decide (2 ^ 63 - 1 < x.sum.natAbs))

/-- The index a MAX or MIN cell delivers (R61). -/
def Cell.indexRead (mode : Nat) (x : Cell) : Nat :=
  match x.read mode with
  | .nan => x.index.toNat % 2 ^ 20
  | .inf _ => x.index.toNat % 2 ^ 20
  | .fin _ => x.state.toNat % 2 ^ 20
  | .empty _ => 0xFFFFF

/-- A cell of a core's group. -/
def cellOf (k : Core) (g i j : Nat) : Cell := mget Cell.zero k.cells (cellKey g i j)

/-- A check line of a core's group. -/
def checkOf (k : Core) (g line : Nat) : CheckLine := mget ⟨0, 0⟩ k.checks (lineKey g line)

/-- The core with a check line changed. -/
def modCheck (g line : Nat) (f : CheckLine → CheckLine) (k : Core) : Core :=
  { k with checks := mset k.checks (lineKey g line) (f (checkOf k g line)) }

/-- The group has check lines: a SUM group opened with checks (R69). -/
def Group.checked (x : Group) : Bool := x.mode == 0 && x.chk

/-- A rounded contribution counts in the group and in its cell's lines (R54, R68). -/
def countRounded (g i j : Nat) (k : Core) : Core :=
  let k := modGroup g (fun x => { x with rounded := min (x.rounded + 1) (2 ^ 64 - 1) }) k
  let up := fun (x : CheckLine) => { x with r := x.r + 1 }
  if (groupOf k g).checked then modCheck g i up (modCheck g (256 + j) up (modCheck g 512 up k)) else k

/-- A block product reaches its cell as step t of the group (R53 to R61). -/
def contribute (g t i j : Nat) (b : Partial) (k : Core) : Core :=
  let x := groupOf k g
  let a := align b.p b.w x.anchor
  let cell := cellOf k g i j
  let cell := if x.mode = 0 then cell.addSum b a else cell.compete (x.mode == 2) t b a
  let k := { k with cells := mput Cell.zero k.cells (cellKey g i j) cell }
  if b.finite && a.rounded then countRounded g i j k else k

/-- A line's check contribution: the exact sum of a step's finite values, rounded once (R67). -/
def checkContribute (g line : Nat) (sum : Dyad) (k : Core) : Core :=
  let r := gridRound sum.m (sum.e - (groupOf k g).anchor)
  modCheck g line (fun x => { sum := x.sum + BitVec.ofInt 72 r.1, r := x.r + (if r.2 then 1 else 0) }) k

/-! ### Opening and closing -/

/-- A group opens (R64). -/
def openGroup (g mode : Nat) (chk : Bool) (anchor : Int) (cal : Option (Nat × Nat)) (k : Core) : Core :=
  modGroup g (fun _ => { Group.reset with state := 1, mode := mode, chk := chk, anchor := anchor, cal := cal }) (clearCells g k)

/-- The addresses of a core's accumulator cells and check cells in its debug window (R74, R231): a poison mark on them is a
mark on the accumulators (R410). -/
def cellAddr (c : CoreId) (key : Nat) : Nat := 0xF8000000000 + c.val * 0x800000 + 16 * key
def checkAddr (c : CoreId) (g : Nat) : Nat := 0xF8000400000 + c.val * 0x800000 + g * 513 * 16

/-- The marks of the accumulators of a group cleared: opening it sets every cell and check cell (R64, R411). -/
def freshCells (c : CoreId) (g : Nat) (s : State) : State :=
  cleanRange (cellAddr c (cellKey g 0 0)) (65536 * 16) (cleanRange (checkAddr c g) (513 * 16) s)

/-- The listed cells of a group: row, column, cell. -/
def groupCells (k : Core) (g : Nat) : List (Nat × Nat × Cell) :=
  (k.cells.filter (fun p => decide (p.1 / 65536 = g))).map (fun p => (p.1 / 256 % 256, p.1 % 256, p.2))

/-- A cell lies on a check line (R71's numbering). -/
def onLine (line i j : Nat) : Bool := if line < 256 then i == line else if line < 512 then j + 256 == line else true

/-- The outcome of a line at close (R68, R69): unchecked, or its difference when it fails. -/
inductive LineOutcome where
  | unchecked
  | pass
  | fail (d : Nat)
  deriving DecidableEq, Repr

/-- A line at close. -/
def lineAt (k : Core) (g : Nat) (cells : List (Nat × Nat × Cell)) (line : Nat) : LineOutcome :=
  let mine := cells.filter (fun x => onLine line x.1 x.2.1)
  if mine.any (fun x => x.2.2.flag 25 || x.2.2.flag 27 || x.2.2.flag 28 || x.2.2.flag 29) then .unchecked
  else
    let total := mine.foldl (fun a x => a + x.2.2.sum) 0
    let chk := checkOf k g line
    let d := (chk.sum - BitVec.ofInt 72 total).toInt.natAbs
    if d ≤ chk.r / 2 then .pass else .fail d

/-- TOP of R72: 1 + ⌊log2⌋ of the largest magnitude among the cells that read as finite. -/
def topOf (mode : Nat) (cells : List (Nat × Nat × Cell)) : Nat :=
  let mag := fun (x : Cell) => match x.read mode with
    | .fin _ => if mode = 0 then x.sum.natAbs else x.value.toInt.natAbs
    | .nan => 0
    | .inf _ => 0
    | .empty _ => 0
  let m := cells.foldl (fun a x => max a (mag x.2.2)) 0
  if m = 0 then 0 else 1 + Nat.log2 m

/-- A cell counted in NFCELLS (R72). -/
def nonFinite (mode : Nat) (x : Cell) : Bool :=
  match x.read mode with
  | .nan => true
  | .inf _ => true
  | .fin _ => false
  | .empty _ => false

/-- The close record (R72), with the outcomes of the 513 lines. -/
def closeRecord (k : Core) (g : Nat) (x : Group) : Group :=
  let cells := groupCells k g
  let lines := if x.checked then (List.range 513).map (fun l => (l, lineAt k g cells l)) else []
  let fails := lines.filterMap (fun p => match p.2 with
    | .fail d => some (p.1, d)
    | .pass => none
    | .unchecked => none)
  { x with
    state := 3
    wiped := false
    fail := !fails.isEmpty
    ovfCells := cells.countP (fun p => p.2.2.ovf x.mode)
    nfCells := cells.countP (fun p => nonFinite x.mode p.2.2)
    failLines := fails.length
    unchkLines := if x.checked then lines.countP (fun p => decide (p.2 = .unchecked)) else 513
    top := topOf x.mode cells
    firstLine := (fails.head?.map (·.1)).getD 0x3FF
    worst := min (fails.foldl (fun a p => max a p.2) 0) (2 ^ 64 - 1) }

/-- A failing check line is a detection (R70, R407): CHECK, but in a check run, where it counts as a mismatch (R406). -/
def lineFails (c : CoreId) (s : State) : State :=
  match (s.core c).sched.task with
  | none => s
  | some t =>
    modCore c (modTask (fun t => { t with lineFail := true })) (if t.run = .check then s else logCheck 1 c t s)

/-- The events of a close (R71). The core's task sequence number is the arming sequence number of its slot (DEDUCED,
log entry 17). -/
def closeEvents (c : CoreId) (g : Nat) (s : State) : State :=
  let k := s.core c
  let x := groupOf k g
  let seq := match k.sched.task with
    | some t => (slotOf k t.slot).seq
    | none => 0
  let s := if 0 < x.ovfCells then logEvent (coreP c 4) 0 [] s else s
  let s := if 0 < x.nfCells then logEvent (coreP c 4) 1 [] s else s
  let s := if x.fail then lineFails c (logEvent (coreP c 4) 2 [g + x.firstLine * 2 ^ 16, seq % 2 ^ 32] s) else s
  if x.checked && decide (0 < x.unchkLines) then logEvent (coreP c 4) 3 [] s else s

/-- A group becomes CLOSED (R65): its record, its events, the observation of a calibrated group (R81), and the completion of
its GCLOSE. -/
def closeGroup (c : CoreId) (g : Nat) (s : State) : State :=
  let s := modCore c (fun k => modGroup g (closeRecord k g) k) s
  let s := closeEvents c g s
  let x := groupOf (s.core c) g
  let s := match x.cal with
    | none => s
    | some (slot, step) =>
      deliverObs slot step (if x.top = 0 then none else some ((x.top : Int) + x.anchor)) (decide (0 < x.ovfCells)) s
  match x.closer with
  | none => s
  | some fl => completeFlight c fl 1 s

end Sys2Proof.Machine
end

