-- ==== Sys2Proof/Machine/VectorRegs.lean ====
section
/-! DEFINITION. The vector engine: command fields (R194, R195), registers and element layouts (R130), and what every vector
command shares: its checks (R201 checks 8 to 16), its take (R197) and its completion (R181). -/
namespace Sys2Proof.Machine

/-- The fields of a vector command (R178, R194, R195). -/
structure VCmd where
  op : Nat
  lay : Nat
  ssel : Bool
  msk : Bool
  flag : Bool
  vd : Nat
  va : Nat
  vb : Nat
  vc : Nat
  c : Nat
  sub : Nat
  rl : Nat
  n : Nat
  tr : Nat
  row0 : Nat
  exp : Bool
  cal : Bool
  g : Nat
  slot : Nat
  ebyte : Nat
  i0 : Nat
  dest : Nat
  scalar : Nat
  deriving DecidableEq, Repr

/-- A command word read as a vector command. -/
def vcmdOf (w : BitVec 128) : VCmd :=
  { op := cmdBits w 7 0, lay := cmdBits w 27 26, ssel := cmdBits w 28 28 == 1, msk := cmdBits w 29 29 == 1,
    flag := cmdBits w 30 30 == 1, vd := cmdBits w 37 32, va := cmdBits w 43 38, vb := cmdBits w 49 44,
    vc := cmdBits w 55 50, c := cmdBits w 61 56, sub := cmdBits w 67 64, rl := cmdBits w 71 68, n := cmdBits w 88 72,
    tr := cmdBits w 71 64, row0 := cmdBits w 91 72, exp := cmdBits w 92 92 == 1, cal := cmdBits w 93 93 == 1,
    g := cmdBits w 95 94, slot := cmdBits w 109 96, ebyte := cmdBits w 117 110, i0 := 8 * cmdBits w 122 118,
    dest := cmdBits w 124 123, scalar := cmdBits w 127 96 }

/-! ### Registers (R130) -/

/-- Consecutive words of a rising table from a key upwards, absent words zero. -/
def dense : Nat → Nat → Map W32 → List Nat
  | _, 0, _ => []
  | a, n + 1, m =>
    match m with
    | [] => 0 :: dense (a + 1) n []
    | (k, v) :: t => if k = a then v.toNat :: dense (a + 1) n t else 0 :: dense (a + 1) n m

/-- The words of c registers from register r, lane by lane. -/
def vregs (k : Core) (r c : Nat) : List Nat :=
  dense (r * 2048) (c * 2048) (k.vec.regs.filter (fun p => decide (r * 2048 ≤ p.1)))

/-- Words keyed from a upwards, zeros left out. -/
def keyed : Nat → List Nat → Map W32
  | _, [] => []
  | a, x :: t => if x % 2 ^ 32 = 0 then keyed (a + 1) t else (a, BitVec.ofNat 32 x) :: keyed (a + 1) t

/-- The core with consecutive register words written from lane 0 of register r. -/
def setVregs (r : Nat) (ws : List Nat) (k : Core) : Core :=
  let a := r * 2048
  let regs := k.vec.regs.filter (fun p => decide (p.1 < a)) ++ keyed a ws ++
    k.vec.regs.filter (fun p => decide (a + ws.length ≤ p.1))
  { k with vec := { k.vec with regs := regs } }

/-- Elements of words in a layout, and words of elements (R130). -/
def splitLay (lay : Nat) (ws : List Nat) : List Nat :=
  if lay = 2 then ws.flatMap (fun w => [w % 65536, w / 65536]) else ws
def pairHalves : List Nat → List Nat
  | [] => []
  | [a] => [a]
  | a :: b :: t => (a + 65536 * b) :: pairHalves t
def joinLay (lay : Nat) (es : List Nat) : List Nat := if lay = 2 then pairHalves es else es

/-- The elements of c registers in a layout. -/
def velems (k : Core) (r c lay : Nat) : List Nat := splitLay lay (vregs k r c)

/-- The fraction width of a layout's real format. -/
def layFb (lay : Nat) : Nat := if lay = 2 then 7 else 23

/-! ### Checks (R201) -/

/-- The layouts an operation accepts (R138, R194); no operation has the code when none. -/
def layoutsOf (op : Nat) : List Nat :=
  if op = 0x00 ∨ op = 0x43 ∨ op = 0x71 then [0, 1, 2, 3]
  else if (1 ≤ op ∧ op ≤ 0x0F) ∨ op = 0x40 then [0, 2]
  else if op = 0x10 ∨ op = 0x11 ∨ op = 0x80 ∨ op = 0x81 then [0, 1, 2]
  else if 0x20 ≤ op ∧ op ≤ 0x2B then [1]
  else if op = 0x70 then [0, 1]
  else if op = 0x41 ∨ op = 0x42 ∨ (0x50 ≤ op ∧ op ≤ 0x53) ∨ (0x60 ≤ op ∧ op ≤ 0x64) then [0]
  else []

/-- Check 8: operation, layout, and the condition code or mode that belongs to the operation (R138, R152). That a reserved SUB of
CMP, ICMP or RAND is met here, and so with OPSKIP cause 1, is the model's: R157 and R201 name no check for it (DESIGN CHOICE, log
entry 95). -/
def vecOpOk (f : VCmd) : Bool :=
  (layoutsOf f.op).contains f.lay && !((f.op == 0x0F || f.op == 0x29) && decide (5 < f.sub)) &&
    !(f.op == 0x70 && decide (2 < f.sub))

/-- Elementwise operations (R138), and those with one operand. -/
def isElem (op : Nat) : Bool := (decide (1 ≤ op) && decide (op ≤ 0x11)) || (decide (0x20 ≤ op) && decide (op ≤ 0x2B))
def isUnary (op : Nat) : Bool := op == 7 || op == 8 || (decide (0x0A ≤ op) && decide (op ≤ 0x0E)) || op == 0x11

/-- Row operations (R141). -/
def isRow (op : Nat) : Bool := (decide (0x50 ≤ op) && decide (op ≤ 0x53)) || (decide (0x60 ≤ op) && decide (op ≤ 0x64))

/-- The register runs a command names: first register and count (R130). -/
def regRuns (f : VCmd) : List (Nat × Nat) :=
  if isElem f.op then
    [(f.vd, f.c)] ++ (if f.op = 0x11 then [] else [(f.va, f.c)]) ++
      (if isUnary f.op || f.ssel then [] else [(f.vb, f.c)]) ++
      (if f.op = 0x04 ∨ f.op = 0x10 then [(f.vc, f.c)] else [])
  else if f.op = 0x40 then [(f.va, f.c), (f.vd, if f.lay = 0 then (f.c + 1) / 2 else 2 * f.c)]
  else if f.op = 0x70 ∨ f.op = 0x80 ∨ (f.op = 0x43 ∧ f.dest < 2) then [(f.vd, f.c)]
  else if f.op = 0x41 ∨ f.op = 0x42 ∨ f.op = 0x81 then [(f.va, f.c)]
  else if isRow f.op then
    [(f.va, f.c),
     (f.vd, if f.op = 0x53 ∨ f.op = 0x64 then 2 else if f.op < 0x60 then 1 else f.c)] ++
      (if f.msk then [(f.vc, 1)] else []) ++ (if f.op = 0x64 then [(f.vb, 3)] else []) ++
      (if f.flag ∧ f.op = 0x62 then [(f.vb, 2 * f.c)] else if f.flag ∧ f.op = 0x63 then [(f.vb, f.c)] else [])
  else []

/-- Check 9. -/
def vecRegsOk (f : VCmd) : Bool :=
  f.op == 0x00 || f.op == 0x71 ||
    (decide (1 ≤ f.c ∧ f.c ≤ 32) && (regRuns f).all (fun r => decide (r.1 + r.2 ≤ 64)))

/-- Row length and row count (R141). -/
def rowLen (f : VCmd) : Nat := if f.c = 1 then 2 ^ f.rl else 2048 * f.c
def rowCount (f : VCmd) : Nat := if f.c = 1 then 2048 / 2 ^ f.rl else 1

/-- Check 10: row and accumulator geometry (R141, R148). -/
def vecGeomOk (f : VCmd) : Bool :=
  if isRow f.op then
    ((f.c == 1 && decide (3 ≤ f.rl ∧ f.rl ≤ 11)) || (decide (2 ≤ f.c) && f.rl == 11)) && decide (f.n ≤ rowLen f)
  else if f.op = 0x43 then decide (f.i0 + 8 * f.c ≤ 256)
  else true

/-- Check 11: β and ε (R145, R147). -/
def vecScalarOk (f : VCmd) : Bool :=
  let x := fdec 23 f.scalar
  if f.op = 0x60 ∨ f.op = 0x61 ∨ (f.op = 0x64 ∧ f.flag = false) then x.isFin && !x.neg && !x.isZero
  else if f.op = 0x62 ∨ f.op = 0x63 then x.isFin && !x.neg
  else true

/-- The command quantises into a block region (R41). -/
def blockDest (f : VCmd) : Bool := f.op == 0x41 || (f.op == 0x43 && f.dest == 2)

/-- The command reaches tile memory (R139). -/
def isMem (f : VCmd) : Bool := f.op == 0x42 || f.op == 0x80 || f.op == 0x81 || blockDest f

/-- Elements moved, and the linear index of the first (R196). -/
def moved (f : VCmd) : Nat := f.c * (if (f.op = 0x80 ∨ f.op = 0x81) ∧ f.lay = 2 then 4096 else 2048)
def firstElem (f : VCmd) (r : TReg) : Nat := f.row0 * r.v

/-- Position i of block (a, b): row and column (R183). -/
def blockSpot (r : TReg) (a b i : Nat) : Nat × Nat := if r.ax then (32 * b + i, a) else (a, 32 * b + i)

/-- The blocks that n elements from linear index lo touch, as a × 2^20 + b, rising. -/
def touchedBlocks (r : TReg) (lo n : Nat) : List Nat :=
  (List.range n).foldl (fun l k =>
    let p := r.place ((lo + k) / r.v) ((lo + k) % r.v)
    kins l (p.1 * 2 ^ 20 + p.2.1)) []

/-- Every element of a touched block within the region comes from the command (R139). -/
def blocksWhole (r : TReg) (lo n : Nat) : Bool :=
  (touchedBlocks r lo n).all fun b =>
    (List.range 32).all fun i =>
      let p := blockSpot r (b / 2 ^ 20) (b % 2 ^ 20) i
      decide (r.u ≤ p.1 ∨ r.v ≤ p.2 ∨ (lo ≤ p.1 * r.v + p.2 ∧ p.1 * r.v + p.2 < lo + n))

/-- Check 12: the tile register and the extent (R139, R196). -/
def vecRegionOk (f : VCmd) (r : TReg) : Bool :=
  !isMem f ||
    (r.fits && r.space == 0 && decide (firstElem f r + moved f ≤ r.u * r.v) &&
      !(f.op == 0x43 && decide (r.v ≠ 256 ∨ r.u < f.row0 + 8 * f.c)) &&
      !(blockDest f && r.blocks && !blocksWhole r (firstElem f r) (moved f)))

/-- Check 13: the region's format, and an exponent byte of 0xFF where it is used (R29, R40, R196). -/
def vecFormatOk (f : VCmd) (r : TReg) : Bool :=
  let fits :=
    if f.op = 0x80 then
      (if f.lay = 0 then decide (1 ≤ r.fmt ∧ r.fmt ≤ 7) else if f.lay = 1 then r.fmt == 8 || r.fmt == 9 else r.fmt == 4)
    else if f.op = 0x81 then r.fmt == (if f.lay = 0 then 5 else if f.lay = 1 then 9 else 4)
    else if f.op = 0x42 then r.fmt == 8
    else if blockDest f then r.blocks
    else true
  fits && !(!f.cal && f.ebyte == 255 && (f.op == 0x42 || (blockDest f && f.exp)))

/-- Check 14: the destination of an ACCRD (R149). A FREE group has no mode and meets check 15 instead. -/
def vecDestOk (k : Core) (f : VCmd) : Bool :=
  !(f.op == 0x43 && (f.dest == 3 || (f.dest == 1 && (groupOf k f.g).state != 0 && (groupOf k f.g).mode == 0)))

/-- The OPSKIP cause of checks 8 to 14, 0 when they pass (R157, R201). -/
def vecCause (s : State) (c : CoreId) (f : VCmd) : Nat :=
  let r := treg s c f.tr
  if !vecOpOk f then 1
  else if !vecRegsOk f then 2
  else if !vecGeomOk f then 3
  else if !vecScalarOk f then 4
  else if !vecRegionOk f r then 5
  else if !vecFormatOk f r then 6
  else if !vecDestOk (s.core c) f then 7
  else 0

/-- A storage quantisation that is calibrated (R79). -/
def vecCal (f : VCmd) : Bool := f.cal && (f.op == 0x42 || blockDest f)

/-- A calibrated command that takes a value from its slot (R197). -/
def takesValue (f : VCmd) : Bool := f.cal && (f.op == 0x42 || (blockDest f && f.exp))

/-- The lines of a region that n elements from linear index lo reach (R211). -/
def reachedLines (r : TReg) (lo n : Nat) : List Nat :=
  if r.blocks && r.ax then
    (if r.v ≤ n then List.range r.v else (List.range n).foldl (fun l k => kins l ((lo + k) % r.v)) [])
  else (List.range ((lo + n - 1) / r.v + 1 - lo / r.v)).map (fun k => lo / r.v + k)

/-- The tags of a VLD's lines are those it captured (R139, R213). -/
def vldTagsOk (s : State) (c : CoreId) (e : QEntry) (f : VCmd) : Bool :=
  let r := treg s c f.tr
  linesOk (s.core c) f.tr (mfind e.rcap f.tr) (reachedLines r (firstElem f r) (moved f))

/-- What is a schedule fault in normal mode keeps the command waiting in guarded replay (R66, R213, R215). -/
def vecWaits (s : State) (c : CoreId) (e : QEntry) : Bool :=
  let f := vcmdOf e.word
  let k := s.core c
  let st := (groupOf k f.g).state
  k.guarded && vecCause s c f == 0 &&
    ((f.op == 0x43 && (st == 1 || st == 2)) || (f.op == 0x80 && !vldTagsOk s c e f))

/-- A command that takes a value from its slot waits until the values of its task's step are in force (R197). -/
def vecReady (s : State) (c : CoreId) (e : QEntry) : Bool :=
  let f := vcmdOf e.word
  !takesValue f || calOff s f.slot || calInForce s f.slot (taskStep s c)

/-! ### Take and completion -/

/-- OPSKIP of the vector page (R157). -/
def logVecSkip (c : CoreId) (e : QEntry) (cause : Nat) (s : State) : State :=
  logEvent (coreP c 5) 5 [e.idx + cause * 2 ^ 8] s

/-- A taken command: its checks in the order of R201, then what it does. -/
def vecTake (c : CoreId) (act : VCmd → QEntry → State → State) (e : QEntry) (s : State) : State :=
  let f := vcmdOf e.word
  let cause := vecCause s c f
  let st := (groupOf (s.core c) f.g).state
  if cause ≠ 0 then logVecSkip c e cause s
  else if f.op = 0x43 ∧ st = 0 then logGroupSkip c e s
  else if f.op = 0x43 ∧ st ≠ 3 then scheduleFault c 4 1 e.idx 0 s
  else if vecCal f && calOff s f.slot then logCalOff f.slot (taskStep s c) s
  else act f e s

/-- The vector engine takes a command of one operation (R132, R197). -/
def takeVector (c : CoreId) (op : Nat) (act : VCmd → QEntry → State → State) (s : State) : State :=
  takeWhen c .vector (fun e => opIs op e && vecReady s c e && !vecWaits s c e) (vecTake c act) s

/-- A command that has written its destinations is in execution until it completes. -/
def beginVec (c : CoreId) (e : QEntry) (obs : Option (Nat × Option Int × Bool)) (s : State) : State :=
  let fl := flightOf .vector e
  addFlight c fl (modCore c (fun k => { k with vec := { k.vec with running := k.vec.running ++ [(fl, obs)] } }) s)

/-- A command that only writes registers. -/
def vecWrite (c : CoreId) (f : VCmd → Core → Core) (v : VCmd) (e : QEntry) (s : State) : State :=
  beginVec c e none (modCore c (f v) s)

end Sys2Proof.Machine
end

