-- ==== Sys2Proof/Machine/RedOps.lean ====
section
/-! DEFINITION. Gradient reduction: the member's side (R308 to R312, R320, R408), the derivation of scales with agreement (R84 to
R91, R319), and the home's records (R316 to R324). -/
namespace Sys2Proof.Machine

/-- The deadlines and waits of a bucket, in Gnomon cycles. -/
def memberWait (s : State) (b : Nat) : Nat := usCycles (bitsOf (bkWord s b 0x158) 15 0)
def homeWait (s : State) (b : Nat) : Nat := usCycles (bitsOf (bkWord s b 0x158) 31 16)
def epochWait (s : State) (b : Nat) : Nat := usCycles (10 * bitsOf (bkWord s b 0x15C) 15 0)

/-- The member map in memory: one module of it, and all of it. -/
def inMap (s : State) (b m : Nat) : Bool := (memGet s.mem (bkPair s b 0x150 + m / 8)).getLsbD (m % 8)
def memberMap (s : State) (b : Nat) : List Nat := mapOf (memGetAll s.mem (bkPair s b 0x150) 2048)

/-! ### Messages (R313, R343, R361) -/

/-- A message with no map and no elements. -/
def redMsg (s : State) (b step type : Nat) : RedMsg :=
  { step := step, type := type, chan := bkChan s b, bucket := b, src := moduleId s, home := bkHome s b, wide := false,
    map := none, cause := 0, scale := 0, epoch := 0, tmax := 0, count := 0, elems := [], wrong := [] }

/-- A message sent: PROPOSE, AGREE and RECEXCL on VC7, the others on the bucket's channel; RED_SENT. -/
def sendRed (dest : Nat) (r : RedMsg) (s : State) : State :=
  let s := bumpPair redPage 0x180 1 s
  if r.type = 4 ∨ r.type = 5 ∨ r.type = 7 then sendMsg dest 7 53 2 [] (.red r) s
  else sendMsg dest (if r.chan < 32 then 4 else 5) r.chan 2 [] (.red r) s

/-! ### The member (R308 to R312) -/

/-- A member's state at the start of a step, its deadline set (R311). -/
def Member.fresh (step deadline : Nat) : Member :=
  { step := step, released := 0, staging := [], nonfin := false, space := 0, epoch := 0, checks := [], bad := false, ready := 0,
    sent := false, ended := false, retained := none, clearSent := false, deadline := some deadline, closed := false }

/-- The state with a bucket's member state for a step changed, and readiness judged. -/
def modMember (b step : Nat) (f : Member → Member) (s : State) : State :=
  match memberOf s b step with
  | some m => judgeReadiness (modRed (fun r => { r with members := mset r.members (parKey b step) (f m) }) s)
  | none => s

/-- When the current step's member deadline falls (R311): an early edge of the step brings it forward (R392). -/
def memberTill (s : State) (b : Nat) : Nat :=
  let till := s.bnd.begun + memberWait s b
  match s.bnd.earlyAt with
  | some t => min till (max t (s.bnd.begun + usCycles (fieldOf s 0 bndPage 0x108 15 0)))
  | none => till

/-- A bucket's member state for a step begins; what an earlier step of its parity still held is dropped with its space. One
that the step has already begun takes its deadline afresh (R384): a part that the fallen deadline ended begins anew. -/
def startMember (b step : Nat) (s : State) : State :=
  let till := memberTill s b
  match mfind s.red.members (parKey b step) with
  | some m =>
    if m.step = step ∧ m.ready ≠ 1 then modMember b step (fun m => { m with deadline := some till, closed := false }) s
    else
      let s := freeSpace (bkChan s b) m.space s
      modRed (fun r => { r with members := mset r.members (parKey b step) (Member.fresh step till) }) s
  | none => modRed (fun r => { r with members := mset r.members (parKey b step) (Member.fresh step till) }) s

/-- The member state of the current step, begun if the bucket was enabled after the step began. -/
def ensureMember (b step : Nat) (s : State) : State :=
  if step = s.bnd.step ∧ (memberOf s b step).isNone ∧ bkMember s b then startMember b step s else s

/-- RLATE (R327), with its class bit. -/
def logRlate (b kind step : Nat) (s : State) : State := chargeClass 1 step (logEvent redPage 2 [b + kind * 2 ^ 12] s)

/-- A member's staged parts are dropped with their space. -/
def dropStaging (b step : Nat) (s : State) : State :=
  match memberOf s b step with
  | some m => modMember b step (fun m => { m with staging := [], space := 0 }) (freeSpace (bkChan s b) m.space s)
  | none => s

/-- Element-wise sums; the longer list's tail stands. -/
def addElems : List Int → List Int → List Int
  | [], ys => ys
  | xs, [] => xs
  | x :: xs, y :: ys => (x + y) :: addElems xs ys

/-- The later of two epochs of a 32-bit count. -/
def laterEpoch (a b : Nat) : Nat := if (b + 2 ^ 32 - a) % 2 ^ 32 < 2 ^ 31 then b else a

/-- A slot fell back to its proposal for a step (R91). -/
def fellBackFor (s : State) (b step : Nat) : Bool := step == s.bnd.step && (calGet s (bkSlot s b)).fellBack

/-- A complete contribution takes its form (R309) and its epoch its attached checks (R408). -/
def completeMember (b step : Nat) (s : State) : State :=
  match memberOf s b step with
  | none => s
  | some m =>
    if m.released < bkParts s b then s
    else
      let form := if m.nonfin then 2 else if fellBackFor s b step then 3 else 4
      let s := modMember b step (fun m => { m with ready := form, checks := [] }) s
      modRed (fun r => { r with
        attached := r.attached ++ m.checks.map (fun c => (m.epoch, c))
        failed := if m.bad then kins r.failed m.epoch else r.failed }) s

/-! ### Reduce commands (R200, R308) -/

/-- The fields of CONTRIB and RETRACT. -/
structure RCmd where
  chan : Nat
  bucket : Nat
  tr : Nat
  row0 : Nat
  elems : Nat
  deriving DecidableEq, Repr

/-- A command word read as a reduce command. -/
def rcmdOf (w : BitVec 128) : RCmd :=
  { chan := cmdBits w 37 32, bucket := cmdBits w 49 38, tr := cmdBits w 57 50, row0 := cmdBits w 83 64, elems := cmdBits w 127 96 }

/-- The run only digests its parts (R403). -/
def partsDigestOnly (s : State) (c : CoreId) : Bool :=
  match (s.core c).sched.task with
  | some t => t.run == .check || t.run == .deciding false
  | none => false

/-- Parts of a bucket and step that running tasks hold. -/
def heldParts (s : State) (b step : Nat) : Nat :=
  allCores.foldl (fun n c => n + (match (s.core c).sched.task with
    | some t => t.parts.countP (fun p => p.bucket == b && p.step == step && !p.retract)
    | none => 0)) 0

/-- Bytes of a channel's send buffer. -/
def bufBytes (s : State) (ch : Nat) : Nat := 1024 * bitsOf (rawWord s (entryBank ch) redPage 0x110) 20 0

/-- The epoch is clear (R408). -/
def epochClear (s : State) (n : Nat) : Bool := s.red.attached.all (fun p => p.1 != n) && !s.red.failed.contains n

/-- The cause of a refusal, 0 for none (R308). The causes that the state of this module's own earlier parts raises are not
judged where the run only digests (DEDUCED, log entry 24). A CLEAR whose epoch is clear is on its way, and stands before a
RETRACT (R320, R325). -/
def refuseCause (s : State) (c : CoreId) (retract : Bool) (f : RCmd) : Nat :=
  let b := f.bucket
  let step := taskStep s c
  let mode := (calGet s (bkSlot s b)).cfg.mode
  let m := memberOf s b step
  let only := partsDigestOnly s c
  let full := match m with
    | some m => m.sent || decide (bkParts s b ≤ m.released + heldParts s b step)
    | none => decide (bkParts s b ≤ heldParts s b step)
  let noRetained := match m with
    | some m => m.retained.isNone || m.clearSent || epochClear s m.epoch
    | none => true
  if !bkMember s b then 1
  else if f.chan ≠ bkChan s b then 2
  else if bkLen s b < f.elems then 3
  else if mode = 0 ∨ mode = 1 then 4
  else if !retract && !only && full then 5
  else if bufBytes s f.chan < partSpace s b then 6
  else if retract && (decide (1 < bkParts s b) || (!only && noRetained)) then 7
  else 0

/-- The send buffer has room for one part. -/
def partRoom (s : State) (f : RCmd) : Bool := decide (mget 0 s.red.used f.chan + partSpace s f.bucket ≤ bufBytes s f.chan)

/-- A command that fails R308 is taken at once; another waits for room and for the final scale. -/
def redReady (s : State) (c : CoreId) (retract : Bool) (e : QEntry) : Bool :=
  let f := rcmdOf e.word
  refuseCause s c retract f != 0 ||
    (calInForce s (bkSlot s f.bucket) (taskStep s c) && (partsDigestOnly s c || partRoom s f))

/-- RSKIP (R201 checks 17 and 18, R203). -/
def logRskip (c : CoreId) (e : QEntry) (cause : Nat) (s : State) : State :=
  logEvent (coreP c 2) 1 [e.idx * 2 ^ 8 + cause * 2 ^ 16] s

/-- RREFUSE (R327). -/
def logRrefuse (c : CoreId) (e : QEntry) (cause b : Nat) (s : State) : State :=
  logEvent redPage 0 [c.val + e.idx * 2 ^ 8 + cause * 2 ^ 16, b] s

/-- The RSKIP cause of checks 17 and 18, 0 when they pass. -/
def rskipCause (r : TReg) (f : RCmd) : Nat :=
  if !(r.fits && r.fmt == 8 && r.space == 0) then 1
  else if f.elems = 0 ∨ r.u * r.v < f.row0 * r.v + f.elems then 2
  else 0

/-- The lines of the region that the elements lie in carry the tag that the command captured (R213). -/
def redTagsOk (s : State) (c : CoreId) (e : QEntry) : Bool :=
  let f := rcmdOf e.word
  let r := treg s c f.tr
  linesOk (s.core c) f.tr (mfind e.rcap f.tr) (reachedLines r (f.row0 * r.v) f.elems)

/-- In guarded replay a tag mismatch keeps a command waiting that would read its elements (R215). -/
def redWaits (s : State) (c : CoreId) (retract : Bool) (e : QEntry) : Bool :=
  let f := rcmdOf e.word
  (s.core c).guarded && rskipCause (treg s c f.tr) f == 0 && refuseCause s c retract f == 0 && !redTagsOk s c e

/-- The check epoch is stamped and advances, from 2^32 − 1 to 1 (R408). -/
def stampEpoch (s : State) : Nat × State :=
  let n := rawWord s 0 relPage 0x100
  (n, setWord 0 relPage 0x100 (if n = 2 ^ 32 - 1 then 1 else n + 1) s)

/-- The digest of one part: its elements as lines of a region at address 0 (R404). -/
def digestPart (es : List Int) (t : Task) : Task :=
  { t with digest := { t.digest with
      parts := mset t.digest.parts t.digest.parts.length (writeHash 0 (elemsBytes false es)) } }

/-- A part is formed, and held unless the run only digests it. -/
def formPart (c : CoreId) (retract : Bool) (f : RCmd) (es : List Int) (s : State) : State :=
  let s := if partsDigestOnly s c then s
    else
      let p := stampEpoch s
      let part : Part :=
        { bucket := f.bucket, step := taskStep s c, core := c.val, epoch := p.1, elems := es, retract := retract }
      let s := modCore c (modTask (fun t => { t with parts := t.parts ++ [part] })) p.2
      let n := partSpace s f.bucket
      modRed (fun r => { r with used := mset r.used f.chan (mget 0 r.used f.chan + n) }) s
  modCore c (modTask (digestPart es)) s

/-- A CONTRIB or RETRACT is taken: R201's checks, R308's, the tags and marks of what it reads, then its part. One that fails
both kinds of check logs RSKIP: the spec does not order the two tables (DESIGN CHOICE, log entry 93). -/
def redTake (c : CoreId) (retract : Bool) (e : QEntry) (s : State) : State :=
  let f := rcmdOf e.word
  let r := treg s c f.tr
  let skip := rskipCause r f
  let cause := refuseCause s c retract f
  if skip ≠ 0 then logRskip c e skip s
  else if cause ≠ 0 then logRrefuse c e cause f.bucket s
  else if !redTagsOk s c e then scheduleFault c 1 3 e.idx f.tr s
  else
    let spots := (List.range f.elems).map (fun k => (f.row0 + k / r.v, k % r.v))
    match firstPoison s (spots.flatMap (fun p => elemBytes c r p.1 p.2)) with
    | some a => consumeTask c a s
    | none =>
      let es := spots.map (fun p => signedOf 16 (plainElem s c r p.1 p.2))
      completeNow c .reduce e (formPart c retract f (es ++ List.replicate (bkLen s f.bucket - f.elems) 0) s)

/-- The reduce engine takes a CONTRIB or a RETRACT. -/
def takeReduce (c : CoreId) (op : Nat) (s : State) : State :=
  takeWhen c .reduce (fun e => opIs op e && redReady s c (op == 2) e && !redWaits s c (op == 2) e) (redTake c (op == 2)) s

/-! ### Sending (R310) -/

/-- Every bucket below b on the channel of which the module is a member has sent its CONTRIB or NOTICE for the step, and so has
every one on it for an earlier step: messages leave in ascending order of (step, bucket). -/
def lowerSent (s : State) (ch b step : Nat) : Bool :=
  let mine := fun (q : Nat) => bkMember s q && bkChan s q == ch
  (buckets s).all (fun q =>
    !(decide (q < b) && mine q) || (match memberOf s q step with
      | some m => m.sent
      | none => false)) &&
    s.red.members.all (fun x => !(mine (x.1 / 2) && decide (x.2.step < step)) || x.2.sent)

/-- The complete messages of a channel that have not left, as (step, bucket), and the first of them in order. -/
def waitingSends (s : State) (ch : Nat) : List (Nat × Nat) :=
  s.red.members.filterMap fun x =>
    if x.2.ready ≠ 0 ∧ !x.2.sent ∧ bkChan s (x.1 / 2) = ch then some (x.2.step, x.1 / 2) else none
def firstSend (l : List (Nat × Nat)) : Option (Nat × Nat) :=
  l.foldl (fun best x => match best with
    | none => some x
    | some y => if x.1 < y.1 ∨ (x.1 = y.1 ∧ x.2 < y.2) then some x else some y) none

/-- A sent CONTRIB is retained no longer: its space is free, and no CLEAR follows (R312). -/
def dropRetained (b step : Nat) (s : State) : State :=
  modMember b step (fun m => { m with retained := none, clearSent := true }) (dropStaging b step s)

/-- A member's CONTRIB or NOTICE leaves (R309, R312). A CONTRIB whose record a RECEXCL has named is not retained. -/
def sendMember (b step : Nat) (m : Member) (s : State) : State :=
  let msg := redMsg s b step (if m.ready = 4 then 1 else 3)
  if m.ready = 4 then
    let msg := { msg with
      wide := decide (1 < bkParts s b), scale := calEbyte s (bkSlot s b) step, epoch := m.epoch, count := 1, elems := m.staging }
    let s := modMember b step (fun m => { m with sent := true, retained := some m.staging, staging := [] }) s
    sendRed (bkHome s b) msg (if m.ended then dropRetained b step s else s)
  else
    let s := modMember b step (fun m => { m with sent := true, ended := true }) (dropStaging b step s)
    sendRed (bkHome s b) { msg with cause := m.ready, epoch := m.epoch } s

/-- The next message of a channel leaves when its turn has come. -/
def channelSend (ch : Nat) (s : State) : State :=
  match firstSend (waitingSends s ch) with
  | none => s
  | some (step, b) =>
    match memberOf s b step with
    | none => s
    | some m => if lowerSent s ch b step then sendMember b step m s else s

/-- A CLEAR leaves behind the CONTRIB or RETRACT of a clear epoch; the retained elements go (R312, R320). -/
def sendClear (b step : Nat) (s : State) : State :=
  match memberOf s b step with
  | none => s
  | some m =>
    if m.retained.isSome ∧ !m.clearSent ∧ epochClear s m.epoch then
      let s := modMember b step (fun m => { m with clearSent := true, ended := true, retained := none }) (dropStaging b step s)
      sendRed (bkHome s b) { redMsg s b step 6 with epoch := m.epoch } s
    else s

/-! ### Scales (R84 to R91) -/

/-- An order as R84's anchor and exponent, and whether a clamp acted. -/
def clampTo (lo hi x : Int) : Int := max lo (min hi x)
def scaleOf (c : CalCfg) (t : Int) : Int × Nat × Bool :=
  let a := clampTo (-512) 511 (t + c.h - 64)
  let e := clampTo (-127) 127 (t + c.ho)
  (a, (e + 127).toNat, decide (a ≠ t + c.h - 64 ∨ e ≠ t + c.ho))

/-- Values derived from an order come into force in a slot, CALCLAMP judged (R90). CALCLAMP and CALCOLD capture the step that
the values are for, CALSAT and CALWIDEN the step that ended: R93 says no more than "the step number" (DESIGN CHOICE, log
entry 90). -/
def putInForce (n step : Nat) (t : Int) (s : State) : State :=
  let x := scaleOf (calGet s n).cfg t
  let s := calMod n (fun y => { y with tmax := t, anchor := x.1, ebyte := x.2.1, clamped := x.2.2, pendAgree := false }) s
  if x.2.2 then logEvent calPage 2 (calCapture n step) s else s

/-- CALNOAGREE, with its class bit (R91, R93). -/
def logNoAgree (n step : Nat) (s : State) : State := chargeClass 0 step (logEvent calPage 6 (calCapture n step) s)

/-- A slot takes its local proposal for the rest of the step (R91). -/
def takeProposal (n step : Nat) (s : State) : State :=
  putInForce n step (calGet s n).tmax (calMod n (fun y => { y with fellBack := true }) s)

/-- R91: the slot takes its local proposal. Of the events of one moment the lowest bit is logged first (R496). -/
def fallBack (n step : Nat) (s : State) : State :=
  if (calGet s n).pendAgree ∧ (calGet s n).forStep = some step then logNoAgree n step (takeProposal n step s) else s

/-- The entry that a step's observation writes (R89), none for no observation. -/
def ringEntry (x : CalSlot) : Option Int :=
  if x.obsEnded.sat && x.cfg.mode != 3 then
    let w := x.tmax + x.cfg.g
    some (min 1023 (match x.obsEnded.order with
      | some t => max t w
      | none => w))
  else x.obsEnded.order

/-- CALSAT, and one more step with saturation (R88). -/
def countSat (n step : Nat) (s : State) : State :=
  logEvent calPage 0 (calCapture n step) (calMod n (fun y => { y with satSteps := min 255 (y.satSteps + 1) }) s)

/-- Step 3 of R84: the observation of step s enters the ring. -/
def enterRing (n step : Nat) (s : State) : State :=
  let x := calGet s n
  let e := ringEntry x
  let s := calMod n (fun y => { y with
    ring := match e with
      | some t => mset y.ring (step % 16) t
      | none => mdel y.ring (step % 16) }) s
  let s := if x.obsEnded.sat then countSat n step s else s
  let raised := match e, x.obsEnded.order with
    | some a, some b => decide (b < a)
    | some _, none => true
    | none, _ => false
  if raised then logEvent calPage 1 (calCapture n step) s else s

/-- The maximum of the last W entries up to step s, whose number may be −1 (R384). -/
def windowMax (x : CalSlot) (last : Int) : Option Int :=
  (List.range (x.cfg.wm1 + 1)).foldl (fun m (k : Nat) => maxOrder m (mfind x.ring ((last - (k : Int)) % 16).toNat)) none

/-- The member buckets bound to a slot. -/
def boundBuckets (s : State) (n : Nat) : List Nat := (buckets s).filter (fun b => bkMember s b && bkSlot s b == n)

/-- The member deadline of a bucket bound to a slot has fallen for a step. -/
def boundClosed (s : State) (n step : Nat) : Bool :=
  (boundBuckets s n).any fun b => match memberOf s b step with
    | some m => m.closed
    | none => false

/-- Step 4 of R84 for the step that the slot is due for: the values, the local proposal of an AGREED slot with its PROPOSEs,
and an AGREE that was kept (R90). CALCLAMP is logged before CALCOLD. While the agreement is pending the slot shows the
proposal's values, CLAMPED included (DEDUCED, log entry 98). -/
def deriveValues (n : Nat) (s : State) : State :=
  let x := calGet s n
  let step := x.dueStep
  let t := windowMax x ((step : Int) - 1)
  let cold := x.cfg.mode != 3 && t.isNone
  let tmax := if x.cfg.mode = 3 then x.cfg.t0 else t.getD x.cfg.t0
  let s := calMod n (fun y => { y with
    cold := cold, due := false, writes := false, fellBack := false, forStep := some step }) s
  let logCold := fun (s : State) => if cold then logEvent calPage 5 (calCapture n step) s else s
  if x.cfg.mode = 2 then
    let v := scaleOf x.cfg tmax
    let s := calMod n (fun y => { y with
      tmax := tmax, anchor := v.1, ebyte := v.2.1, clamped := v.2.2, pendAgree := true, kept := mdel y.kept step }) s
    let s := forAll (fun b s => sendRed (bkHome s b) { redMsg s b step 4 with tmax := tmax } s) (boundBuckets s n) s
    match mfind x.kept step with
    | some t => logCold (putInForce n step t s)
    | none => if boundClosed s n step then logNoAgree n step (logCold (takeProposal n step s)) else logCold s
  else logCold (putInForce n step tmax s)

/-- The step before a step, of 64 bits. -/
def stepBefore (step : Nat) : Nat := (step + (2 ^ 64 - 1)) % 2 ^ 64

/-- A slot's derivation, if it is due. -/
def deriveSlot (n : Nat) (s : State) : State :=
  let x := calGet s n
  if x.due then deriveValues n (if x.writes then enterRing n (stepBefore x.dueStep) s else s) else s

/-- A slot's derivation completes, those of the slots below it before it: slots are derived in ascending order (R86). -/
def deriveUpTo (n : Nat) (s : State) : State :=
  if (calGet s n).due then forAll deriveSlot ((s.cal.map (·.1)).filter (fun k => decide (k ≤ n))) s else s

/-- Steps 1 and 2 of R84 and the start of step 3 for a step that begins: configuration and clears applied, the ended step's
observation set apart. A slot that is turned OFF derives nothing, and what its registers show stays as it was, PENDAGREE
included (DESIGN CHOICE, log entry 91). -/
def beginDerive (writes : Bool) (step : Nat) (x : CalSlot) : CalSlot :=
  let clear := x.clearReq || (x.cfg.mode == 0 && x.pending.mode != 0)
  { x with
    cfg := x.pending, clearReq := false, ring := if clear then [] else x.ring,
    satSteps := if x.clearReq then 0 else x.satSteps, obsEnded := x.obs, obs := if writes then Obs.none else x.obs,
    due := x.pending.mode != 0, writes := writes, dueStep := step }

/-- Steps 1 and 2 of R84 for every slot, and CALSAT of those that they leave OFF (R88). -/
def beginSlot (writes : Bool) (step n : Nat) (s : State) : State :=
  let x := calGet s n
  let s := calMod n (beginDerive writes step) s
  if writes && x.obs.sat && x.pending.mode == 0 then countSat n (stepBefore step) s else s

/-- The steps of tasks that run. -/
def runningSteps (s : State) : List Nat :=
  allCores.filterMap (fun c => (s.core c).sched.task.map (·.step))

/-- The values that a slot holds, kept for tasks of their step that still run (R80). Of a step whose agreement is still pending
there is nothing to keep, and a command that waits for it waits on (DEDUCED, log entry 99). -/
def keepPast (steps : List Nat) (x : CalSlot) : CalSlot :=
  let past := match x.forStep with
    | some k => if x.cfg.mode = 0 ∨ x.pendAgree then x.past else mset x.past k (x.anchor, x.ebyte)
    | none => x.past
  { x with past := past.filter (fun p => steps.contains p.1) }

/-- Derivations that are still to be done are done: they complete within 2,048 core cycles of their boundary (R86). -/
def finishDue (s : State) : State := forAll deriveSlot (s.cal.map (·.1)) s

/-- Every slot's derivation for the module's step begins (R84, R384), the values that it holds kept for running tasks. -/
def beginCalibration (writes : Bool) (s : State) : State :=
  let steps := runningSteps s
  let step := s.bnd.step
  forAll (fun n s => beginSlot writes step n (calMod n (keepPast steps) s)) (s.cal.map (·.1)) s

/-! ### Agreement at the home (R319) -/

/-- The key of a bucket's agreement for a step: the home holds a reference for every step in which it has sent an AGREE
(R317). -/
def agKey (b step : Nat) : Nat := b * 2 ^ 64 + step

/-- A bucket's agreement for a step. -/
def agreementOf (s : State) (b step : Nat) : Option Agreement := mfind s.red.agreements (agKey b step)

/-- The step's AGREE was sent under AGPARTIAL. -/
def partialAgreed (s : State) (b step : Nat) : Bool := (agreementOf s b step).any (·.partialAg)

/-- The AGREE of a step is sent, to every module of the member map. -/
def sendAgree (b : Nat) (a : Agreement) (s : State) : State :=
  let t := a.proposals.foldl (fun m p => max m p.2) (-1024)
  let short := decide (a.proposals.length < bkMembers s b)
  let s := modRed (fun r => { r with
    agreements := mset r.agreements (agKey b a.step) { a with sent := some t, partialAg := short } }) s
  let s := forAll (fun m s => sendRed m { redMsg s b a.step 5 with tmax := t } s) (memberMap s b) s
  if short then chargeClass 2 a.step (logEvent redPage 5 [] s) else s

/-- An agreement whose AGREE has not left, and when its wait ends. -/
def agreeAt (s : State) (b : Nat) (a : Agreement) : Nat := a.firstAt + homeWait s b

/-- The wait for a step's proposals ends: its AGREE leaves. -/
def agreeLate (b : Nat) (a : Agreement) (s : State) : State :=
  if a.sent.isSome then s else sendAgree b a (advanceTo (agreeAt s b a) s)

/-- The agreements of a bucket that wait for proposals, lowest step first. -/
def waitingAgreements (s : State) (b : Nat) : List Agreement :=
  s.red.agreements.filterMap fun x => if x.1 / 2 ^ 64 = b ∧ x.2.sent = none then some x.2 else none

/-- A PROPOSE reaches the home. One for a step whose AGREE has been sent is discarded, unless the step is prepared once
more. -/
def applyPropose (r : RedMsg) (s : State) : State :=
  let put := fun (a : Agreement) (s : State) =>
    let s := modRed (fun x => { x with agreements := mset x.agreements (agKey r.bucket r.step) a }) s
    if bkMembers s r.bucket ≤ a.proposals.length then sendAgree r.bucket a s else s
  let new : Agreement :=
    { step := r.step, proposals := [(r.src, r.tmax)], firstAt := s.now, sent := none, partialAg := false, old := false }
  match agreementOf s r.bucket r.step with
  | none => put new s
  | some a =>
    if a.old then put new s
    else if a.sent.isSome then s
    else if a.proposals.any (fun p => p.1 == r.src) then
      put { a with proposals := a.proposals.map (fun p => if p.1 = r.src then (p.1, max p.2 r.tmax) else p) } s
    else put { a with proposals := a.proposals ++ [(r.src, r.tmax)] } s

/-- The agreements so far may be made once more. -/
def ageAgreements (s : State) : State :=
  modRed (fun r => { r with agreements := r.agreements.map (fun x => (x.1, { x.2 with old := true })) }) s

/-- An AGREE reaches a member (R90, R319): applied to the step whose value is pending, kept for a derivation still to come, or
discarded. The step that BND_STEP
names is still to be derived until the page is enabled (R384). -/
def applyAgree (r : RedMsg) (s : State) : State :=
  let n := bkSlot s r.bucket
  let x := calGet s n
  let closed := match memberOf s r.bucket r.step with
    | some m => m.closed
    | none => false
  let unbegun := !pageEn s bndPage && x.forStep != some s.bnd.step
  if x.forStep = some r.step ∧ x.pendAgree ∧ !(x.due && x.dueStep == r.step) ∧ !closed then putInForce n r.step r.tmax s
  else if (r.step = s.bnd.step ∧ (x.due || unbegun) ∧ !closed) ∨ r.step = (s.bnd.step + 1) % 2 ^ 64 then
    calMod n (fun y => { y with kept := mset y.kept r.step r.tmax }) s
  else s

/-! ### Records at the home (R316 to R318) -/

/-- A Gnomon-side write of the home's own tables, behind those that wait (R241). -/
def homeWrite (a : Nat) (bs : List Byte) (s : State) : State :=
  homeStore (.home (homeNumber s) (a % 2 ^ 44) bs) (a % 2 ^ 44) bs s

/-- The sum buffer of a step: the odd one lies above the even one (R326). -/
def sumAddr (s : State) (b step : Nat) : Nat := bkPair s b 0x140 + step % 2 * ((bkLen s b + 15) / 16 * 64)

/-- The state with a record changed, and readiness judged. -/
def modRecord (b step : Nat) (f : Record → Record) (s : State) : State :=
  match recordOf s b step with
  | some r => judgeReadiness (modRed (fun x => { x with records := mset x.records (parKey b step) (f r) }) s)
  | none => s

/-- The sum written through to its buffer. -/
def storeSum (b step : Nat) (s : State) : State :=
  match recordOf s b step with
  | some r => homeWrite (sumAddr s b step) (elemsBytes true r.sum) s
  | none => s

/-- A record opens at a time with its home deadline (R316). -/
def openRecord (b step at_ wait : Nat) (s : State) : State :=
  let r : Record :=
    { step := step, state := 1, sum := List.replicate (bkLen s b) 0, included := [], excluded := [], cleared := [], late := 0,
      retractions := 0, opened := at_, deadline := at_ + wait, collectedAt := 0, past := false, delivered := false, ref := none,
      partialAg := false }
  storeSum b step (modRed (fun x => { x with records := mset x.records (parKey b step) r }) s)

/-- A collected record is ready when every included member is cleared (R320). -/
def judgeReady (b step : Nat) (s : State) : State :=
  modRecord b step (fun r =>
    if r.state = 2 ∧ r.included.all (fun m => r.cleared.contains m) then { r with state := 3 } else r) s

/-- A record is collected at a time. -/
def collect (b step at_ : Nat) (s : State) : State :=
  judgeReady b step (modRecord b step (fun r => if r.state = 1 then { r with state := 2, collectedAt := at_ } else r) s)

/-- A record whose every member is accounted is collected (R317). -/
def judgeCollected (b step : Nat) (s : State) : State :=
  match recordOf s b step with
  | some r => if bkMembers s b ≤ r.included.length + r.excluded.length then collect b step s.now s else s
  | none => s

/-- A module is excluded, with REXCL (R317). -/
def exclude (b step cause m : Nat) (s : State) : State :=
  let s := modRecord b step (fun r => { r with excluded := r.excluded ++ [(m, cause)] }) s
  let s := logEvent redPage 1 [b + cause * 2 ^ 12 + m * 2 ^ 16, step % 2 ^ 32] s
  bumpPair redPage 0x190 1 (chargeClass 1 step s)

/-- The module is included or excluded. -/
def Record.accounted (r : Record) (m : Nat) : Bool := r.included.contains m || r.excluded.any (fun p => p.1 == m)

/-- The reference scale of a step (R317), none without an agreed or fixed scale. -/
def referenceOf (s : State) (b step : Nat) : Option Nat :=
  let c := (calGet s (bkSlot s b)).cfg
  if c.mode = 3 then some (scaleOf c c.t0).2.1
  else if c.mode = 2 then (agreementOf s b step).bind (fun a => a.sent.map (fun t => (scaleOf c t).2.1))
  else none

/-- A message reached the home after its record was collected (R318): each part of a combined CONTRIB is late, for it has the
effect of its parts one after another (R314). -/
def homeLate (r : RedMsg) (s : State) : State :=
  forAll (fun _ s => logRlate r.bucket 1 r.step (modRecord r.bucket r.step (fun x => { x with late := x.late + 1 }) s)) (redMembers r) s

/-! ### Deadlines

What a deadline does in a cycle stands before an arrival of a later cycle, and before or after one of its own cycle as R318,
R319 and R325 say, whichever command is taken first. -/

/-- The parts of a contribution that running tasks hold are discarded with their space (R311). -/
def dropHeldParts (b step : Nat) (s : State) : State :=
  let mine := fun (p : Part) => p.bucket == b && p.step == step && !p.retract
  forAll (fun c s =>
    match (s.core c).sched.task with
    | none => s
    | some t =>
      let s := modCore c (modTask (fun t => { t with parts := t.parts.filter (fun p => !mine p) })) s
      freeSpace (bkChan s b) (t.parts.countP mine * partSpace s b) s) allCores s

/-- A bucket's member states whose deadlines are still to fall, and the one whose deadline falls first: a step that has ended
keeps its deadline (R311, R394). -/
def waitingMembers (s : State) (b : Nat) : List Member :=
  [b * 2, b * 2 + 1].filterMap (fun k => (mfind s.red.members k).filter (fun m => m.deadline.isSome))
def nextMember (s : State) (b : Nat) : Option Member :=
  (waitingMembers s b).foldl (fun best m => match best with
    | none => some m
    | some x => if m.deadline.getD 0 < x.deadline.getD 0 then some m else some x) none

/-- The member deadline of a bucket falls for a step (R311, R91): nothing of its own cycle comes after it. -/
def memberLate (b step : Nat) (s : State) : State :=
  match memberOf s b step with
  | none => s
  | some m =>
    match m.deadline with
    | none => s
    | some d =>
      let s := modMember b step (fun m => { m with deadline := none, closed := true }) (advanceTo (d + 1) s)
      let s := if m.ready = 0 ∧ !m.sent then
          let s := dropHeldParts b step (dropStaging b step s)
          logRlate b 2 step (modMember b step (fun m => { m with ready := 1, checks := [] }) s)
        else s
      let n := bkSlot s b
      if (calGet s n).cfg.mode = 2 then fallBack n step (if step = s.bnd.step then deriveUpTo n s else s) else s

/-- The next member deadline of a bucket falls. -/
def memberDeadline (b : Nat) (s : State) : State :=
  let s := if pageEn s bndPage then ensureMember b s.bnd.step s else s
  match nextMember s b with
  | none => s
  | some m => memberLate b m.step s

/-- The home deadline of an open record falls (R317). -/
def homeDue (b : Nat) (odd : Bool) (s : State) : State :=
  match mfind s.red.records (b * 2 + if odd then 1 else 0) with
  | none => s
  | some r =>
    if r.state = 1 then
      let s := advanceTo r.deadline s
      let s := forAll (exclude b r.step 1) ((memberMap s b).filter (fun m => !r.accounted m)) s
      collect b r.step r.deadline s
    else s

/-- When the current step's record opens empty, unless its place is taken: by a record of the step, or by one of an earlier
step, or an earlier run of it, that is not delivered (R316, R387). -/
def emptyAt (s : State) (b : Nat) : Option Nat :=
  let step := s.bnd.step
  let busy := match mfind s.red.records (parKey b step) with
    | some r => (r.step == step && !r.past) || (decide (r.step ≤ step) && !r.delivered)
    | none => false
  if bkIsHome s b && pageEn s bndPage && !busy then some (s.bnd.begun + homeWait s b) else none

/-- No message has opened the current step's record by HDLWAIT: it opens empty (R387); after an early edge its deadline is
BND_MINDL after its opening (R392). -/
def openEmpty (b : Nat) (s : State) : State :=
  match emptyAt s b with
  | none => s
  | some t =>
    let early := match s.bnd.earlyAt with
      | some e => decide (e ≤ t)
      | none => false
    openRecord b s.bnd.step t (if early then usCycles (fieldOf s 0 bndPage 0x108 15 0) else homeWait s b) (advanceTo t s)

/-- A collected record that is not ready is excluded whole (R322): a CLEAR of the expiry's own cycle comes before it. -/
def epochDue (b : Nat) (odd : Bool) (s : State) : State :=
  match mfind s.red.records (b * 2 + if odd then 1 else 0) with
  | none => s
  | some r =>
    if r.state = 2 then
      let s := advanceTo (r.collectedAt + epochWait s b + 1) s
      let s := modRecord b r.step (fun x => { x with state := 5, included := [], sum := [] }) s
      let s := forAll (exclude b r.step 5) r.included s
      let s := chargeClass 1 r.step (logEvent redPage 4 [b] s)
      forAll (fun m s => sendRed m (redMsg s b r.step 7) s) (memberMap s b) s
    else s

/-- The deadlines of one record place that have passed. -/
def settlePlace (b : Nat) (odd : Bool) (s : State) : State :=
  let place := fun (s : State) => mfind s.red.records (b * 2 + if odd then 1 else 0)
  let s := match place s with
    | some r => if r.state = 1 ∧ r.deadline ≤ s.now then homeDue b odd s else s
    | none => s
  match place s with
  | some r => if r.state = 2 ∧ r.collectedAt + epochWait s b < s.now then epochDue b odd s else s
  | none => s

/-- What the deadlines of a bucket that have passed do, before a happening of now. -/
def settleBucket (b : Nat) (s : State) : State :=
  let s := match emptyAt s b with
    | some t => if t < s.now then openEmpty b s else s
    | none => s
  let s := settlePlace b true (settlePlace b false s)
  let s := forAll (fun a s => if agreeAt s b a ≤ s.now then agreeLate b a s else s) (waitingAgreements s b) s
  forAll (fun m s => if m.deadline.any (fun d => decide (d < s.now)) then memberLate b m.step s else s) (waitingMembers s b) s

/-! ### Release (R217, R309) -/

/-- A CONTRIB part is released to its channel (R309, R311). (DEDUCED, log entry 45.) -/
def releaseContrib (p : Part) (sampled : Bool) (s : State) : State :=
  let s := settleBucket p.bucket (ensureMember p.bucket p.step s)
  let space := partSpace s p.bucket
  let late := match memberOf s p.bucket p.step with
    | some m => m.closed || m.sent || m.ready != 0
    | none => true
  if late then logRlate p.bucket 2 p.step (freeSpace (bkChan s p.bucket) space s)
  else
    completeMember p.bucket p.step <| modMember p.bucket p.step (fun m =>
      { m with
        released := m.released + 1
        staging := addElems m.staging p.elems
        nonfin := m.nonfin || p.elems.contains (-32768)
        space := m.space + space
        epoch := if m.released = 0 then p.epoch else laterEpoch m.epoch p.epoch
        checks := if sampled then kins m.checks p.core else m.checks }) s

/-- A RETRACT is released: both lists leave under its epoch, behind the CONTRIB that it corrects (R321). -/
def releaseRetract (p : Part) (sampled : Bool) (s : State) : State :=
  let s := freeSpace (bkChan s p.bucket) (partSpace s p.bucket) s
  match (memberOf s p.bucket p.step).bind (·.retained) with
  | none => logRlate p.bucket 3 p.step s
  | some old =>
    let s := modMember p.bucket p.step (fun m => { m with retained := some p.elems, epoch := p.epoch }) s
    let s := if sampled then modRed (fun r => { r with attached := r.attached ++ [(p.epoch, p.core)] }) s else s
    let m := { redMsg s p.bucket p.step 2 with
      scale := calEbyte s (bkSlot s p.bucket) p.step, epoch := p.epoch, count := 1, elems := p.elems, wrong := old }
    sendRed (bkHome s p.bucket) m s

/-- A part released at its task's commit, or at the end of a sampled task's original (R217, R405). -/
def releasePart (sampled : Bool) (p : Part) (s : State) : State :=
  if p.retract then releaseRetract p sampled s else releaseContrib p sampled s

/-- The parts of core c's task released, in the order of their takes. -/
def releaseParts (c : CoreId) (s : State) : State :=
  match (s.core c).sched.task with
  | none => s
  | some t => forAll (releasePart t.sampled) t.parts (modCore c (modTask (fun t => { t with parts := [] })) s)

/-! ### Messages -/

/-- A PROPOSE reaches the home, and an AGREE a member, after the deadlines that have passed. -/
def takePropose (r : RedMsg) (s : State) : State := applyPropose r (settleBucket r.bucket s)
def takeAgree (r : RedMsg) (s : State) : State := applyAgree r (settleBucket r.bucket s)

/-! ### Messages at the home -/

/-- A CONTRIB meets an open record (R317). -/
def includeContrib (r : RedMsg) (rec : Record) (s : State) : State :=
  let who := redMembers r
  let s :=
    if who.any rec.accounted then logEvent redPage 3 [] s
    else if referenceOf s r.bucket r.step = some r.scale then
      let clip := r.elems.take (bkLen s r.bucket)
      storeSum r.bucket r.step <| modRecord r.bucket r.step
        (fun x => { x with sum := addElems x.sum clip, included := who.foldl kins x.included }) s
    else forAll (exclude r.bucket r.step 4) who s
  judgeCollected r.bucket r.step s

/-- A NOTICE meets an open record. A module is accounted once. (DEDUCED, log entry 44.) -/
def excludeNotice (r : RedMsg) (rec : Record) (s : State) : State :=
  if rec.accounted r.src then s
  else judgeCollected r.bucket r.step (exclude r.bucket r.step r.cause r.src s)

/-- A RETRACT corrects an included member's part of the sum (R321). -/
def applyRetract (r : RedMsg) (rec : Record) (s : State) : State :=
  if rec.state ≤ 3 ∧ !rec.delivered ∧ rec.included.contains r.src then
    let n := bkLen s r.bucket
    let s := modRecord r.bucket r.step (fun x =>
      { x with
        sum := addElems (addElems x.sum ((r.wrong.take n).map (fun e => -e))) (r.elems.take n)
        cleared := kdel x.cleared r.src
        state := if x.state = 3 then 2 else x.state
        retractions := x.retractions + 1 }) s
    bumpPair redPage 0x198 1 (storeSum r.bucket r.step s)
  else logRlate r.bucket 3 r.step s

/-- A CLEAR marks its member (R320). -/
def applyClear (r : RedMsg) (rec : Record) (s : State) : State :=
  if rec.included.contains r.src then
    judgeReady r.bucket r.step (modRecord r.bucket r.step (fun x => { x with cleared := kins x.cleared r.src }) s)
  else s

/-- A message of a type sent to the home, judged by the checks of R313, acts on its record (R316 to R321). One for a step that
has ended at the home and whose place a later step holds is late; a later step's record that stands from before BND_STEP was
set back gives way, and so does one of an earlier run of the current step (R384). -/
def applyHome (r : RedMsg) (s : State) : State :=
  match (recordOf s r.bucket r.step).filter (fun x => !(x.past && x.delivered && x.step == s.bnd.step)) with
  | some rec =>
    if r.type = 1 then (if rec.state = 1 then includeContrib r rec s else homeLate r s)
    else if r.type = 3 then (if rec.state = 1 then excludeNotice r rec s else homeLate r s)
    else if r.type = 2 then applyRetract r rec s
    else applyClear r rec s
  | none =>
    let older := match mfind s.red.records (parKey r.bucket r.step) with
      | some rec => decide (r.step < rec.step ∧ r.step < s.bnd.step)
      | none => false
    if r.type = 1 ∨ r.type = 3 then
      if older then homeLate r s
      else
        let s := openRecord r.bucket r.step s.now (homeWait s r.bucket) s
        match recordOf s r.bucket r.step with
        | some rec => if r.type = 1 then includeContrib r rec s else excludeNotice r rec s
        | none => s
    else if r.type = 2 then logRlate r.bucket 3 r.step s
    else s

/-- The record of the message's parity still holds an earlier step undelivered (R316). -/
def recordBusy (s : State) (r : RedMsg) : Bool :=
  match mfind s.red.records (parKey r.bucket r.step) with
  | some rec => (decide (rec.step < r.step) || (rec.past && rec.step == r.step && r.step == s.bnd.step)) && !rec.delivered
  | none => false

/-- The reduction message of a fabric message. -/
def redBody (m : Msg) : Option RedMsg :=
  match m.body with
  | .red r => some r
  | .txn _ _ => none
  | .reply _ _ => none
  | .mgmt _ => none
  | .other _ => none

/-- Two messages came over one channel from one module. -/
def sameChannel (a b : Msg) : Bool := a.src == b.src && a.vc == b.vc && a.flow == b.flow

/-- A message for the home is applied, or waits for its record with the channel behind it (R316). -/
def toHome (m : Msg) (s : State) : State :=
  match redBody m with
  | none => s
  | some r =>
    let s := settleBucket r.bucket s
    if recordBusy s r || s.red.waiting.any (sameChannel m) then modRed (fun x => { x with waiting := x.waiting ++ [m] }) s
    else applyHome r s

/-- The messages that wait, judged again in order. -/
def pumpWaiting (s : State) : State :=
  forAll toHome s.red.waiting (modRed (fun x => { x with waiting := [] }) s)

/-- RBADMSG (R313, R327). -/
def logRbadmsg (m : Msg) (r : RedMsg) (s : State) : State := lostHere m (logEvent redPage 6 [r.type + r.src * 2 ^ 16] s)

/-- R313 lets a message in. -/
def redMsgOk (s : State) (r : RedMsg) : Bool :=
  let b := r.bucket
  if r.type = 0 ∨ 7 < r.type then false
  else if r.type = 5 ∨ r.type = 7 then r.src == bkHome s b && bkMember s b
  else r.home == moduleId s && bkIsHome s b && inMap s b r.src

/-- A reduction message of one of the types arrives. -/
def onRed (m : Msg) (types : List Nat) (f : RedMsg → State → State) (s : State) : State :=
  match redBody m with
  | none => s
  | some r =>
    onMsg m (m.kind == 2 && types.contains r.type) (fun s => if redMsgOk s r then f r s else logRbadmsg m r s) s

/-- RECEXCL reaches a member (R312, R320): its part has ended, and a CONTRIB that it has sent is retained no longer. Parts
not yet sent stay: they complete, or meet the member deadline, as ever. -/
def takeRecexcl (r : RedMsg) (s : State) : State :=
  let s := modMember r.bucket r.step (fun m => { m with ended := true }) s
  match memberOf s r.bucket r.step with
  | some m => if m.retained.isSome then dropRetained r.bucket r.step s else s
  | none => s

/-! ### Commit and delivery (R323, R324) -/

/-- One delivered element. -/
def meanElem (n : Nat) (x : Int) : Int :=
  if n = 0 then 0
  else
    let q := min ((x.natAbs + n - 1) / n) 32767
    if x < 0 then -(q : Int) else q

/-- Members excluded for a cause. -/
def Record.causes (r : Record) (cause : Nat) : Nat := r.excluded.countP (fun p => p.2 == cause)

/-- The record as R324 lays it out. -/
def recordBytes (s : State) (b : Nat) (r : Record) : List Byte :=
  let n := if r.state = 5 then 0 else r.included.length
  bytesOfNat 8 r.step ++ bytesOfNat 2 (b + (if r.state = 5 then 2 else 1) * 2 ^ 12) ++ bytesOfNat 2 n ++
  bytesOfNat 2 (bkMembers s b - 1) ++ [1, 2, 3, 4, 5].flatMap (fun c => bytesOfNat 2 (r.causes c)) ++
  bytesOfNat 2 (min r.late 65535) ++ bytesOfNat 2 (min r.retractions 65535) ++
  bytesOfNat 1 (r.ref.getD 0) ++ [if r.partialAg then 1 else 0] ++ List.replicate 34 0 ++ mapBytes r.included

/-- A committed record's elements go into the gradient range and the record to REC; its sum buffer is free. -/
def deliverRecord (b : Nat) (r : Record) (s : State) : State :=
  let n := if r.state = 5 then 0 else r.included.length
  let g := if n = 0 then List.replicate (bkLen s b) 0 else r.sum.map (meanElem n)
  let s := homeWrite (bkPair s b 0x138) (elemsBytes false g) s
  let s := homeWrite (bkPair s b 0x148 + 2112 * (r.step % 2)) (recordBytes s b r) s
  modRecord b r.step (fun x => { x with delivered := true }) s

/-- The committed and undelivered records of a layer for a step. -/
def layerRecords (s : State) (layer step : Nat) : List (Nat × Record) :=
  s.red.records.filterMap fun x =>
    if x.2.step = step ∧ (x.2.state = 4 ∨ x.2.state = 5) ∧ !x.2.delivered ∧ bkLayer s (x.1 / 2) = layer
    then some (x.1 / 2, x.2) else none

/-- The records of a layer for a step delivered; messages that waited for them go on. -/
def deliverLayer (layer step : Nat) (s : State) : State :=
  pumpWaiting (forAll (fun (x : Nat × Record) s => deliverRecord x.1 x.2 s) (layerRecords s layer step) s)

/-- At the boundary that ends a step, each ready record of it commits and each one excluded whole counts (R323). -/
def commitRecords (step : Nat) (s : State) : State :=
  forAll (fun (x : Nat × Record) s =>
    let b := x.1 / 2
    let s := if x.2.step = step then modRecord b step (fun r => { r with past := true }) s else s
    if x.2.step = step ∧ x.2.state = 3 then
      let s := modRecord b step (fun r => { r with state := 4 }) s
      bumpPair redPage 0x188 1 (modRed (fun r => { r with counts := mset r.counts b x.2.included.length }) s)
    else if x.2.step = step ∧ x.2.state = 5 then bumpPair redPage 0x188 1 s
    else s) s.red.records s

end Sys2Proof.Machine
end

