-- ==== Sys2Proof/Machine/DmaOps.lean ====
section
/-! DEFINITION. DMA transfers: descriptors (R264 to R266), their checks (R267, R268), rows (R265, R270), pacing (R273),
suspension (R254) and completion (R271). -/
namespace Sys2Proof.Machine

/-! ### Descriptors (R264) -/

/-- A descriptor's fields. Counts at or above NDIM are 1. -/
structure DDesc where
  smode : Nat
  dmode : Nat
  sfmt : Nat
  dfmt : Nat
  ndim : Nat
  expo : Bool
  pace : Bool
  prog : Bool
  c0 : Nat
  cs : List Nat
  src : Nat
  dst : Nat
  ss : List Int
  ds : List Int
  deriving DecidableEq, Repr

/-- The sixteen words of a descriptor read as its fields. -/
def descOf (ws : List Nat) : DDesc :=
  let w := fun k => ws.getD k 0
  let n := bitsOf (w 0) 14 12
  let c := fun k v => if k < n then v else 1
  { smode := bitsOf (w 0) 1 0, dmode := bitsOf (w 0) 3 2, sfmt := bitsOf (w 0) 7 4, dfmt := bitsOf (w 0) 11 8, ndim := n,
    expo := bitOf (w 0) 15, pace := bitOf (w 0) 16, prog := bitOf (w 0) 17, c0 := w 1,
    cs := [c 1 (bitsOf (w 2) 15 0), c 2 (bitsOf (w 2) 31 16), c 3 (bitsOf (w 3) 15 0), c 4 (bitsOf (w 3) 31 16)],
    src := w 4 + 2 ^ 32 * w 5, dst := w 6 + 2 ^ 32 * w 7, ss := [8, 9, 10, 11].map (fun k => signedOf 32 (w k)),
    ds := [12, 13, 14, 15].map (fun k => signedOf 32 (w k)) }

/-- What a transfer is (R266). -/
inductive XKind where
  | blockCopy
  | copy
  | load
  | widen
  deriving DecidableEq, Repr

/-- The kind that a pair of formats decides, or none (R266, R38). -/
def kindOf (sf df : Nat) : Option XKind :=
  if sf = df then some (if blockBits sf = 0 then .copy else .blockCopy)
  else if blockBits df ≠ 0 ∧ 4 ≤ sf ∧ sf ≤ 7 then some .load
  else if df = 5 ∧ (blockBits sf ≠ 0 ∨ sf = 4 ∨ sf = 6 ∨ sf = 7) then some .widen
  else none

/-- The kind of a descriptor that passed its checks. -/
def DDesc.kind (d : DDesc) : XKind := (kindOf d.sfmt d.dfmt).getD .copy

/-- Rows (R265, R269). -/
def DDesc.rows (d : DDesc) : Nat := if d.c0 = 0 then 0 else d.cs.foldl (· * ·) 1

/-- The index vector of a row (R265). -/
def DDesc.index (d : DDesc) (r : Nat) : List Nat :=
  (d.cs.foldl (fun (a : List Nat × Nat) c => (a.1 ++ [a.2 % c], a.2 / c)) ([], r)).1

/-- One endpoint: mode, format, value, strides. -/
structure EndP where
  tr : Bool
  fmt : Nat
  val : Nat
  str : List Int
  deriving DecidableEq, Repr

/-- The source and destination endpoints. -/
def DDesc.source (d : DDesc) : EndP := { tr := d.smode == 1, fmt := d.sfmt, val := d.src, str := d.ss }
def DDesc.dest (d : DDesc) : EndP := { tr := d.dmode == 1, fmt := d.dfmt, val := d.dst, str := d.ds }

/-- Tile register, FIRST and SECOND of a TR endpoint (R264). -/
def EndP.treg (e : EndP) : Nat := bitsOf e.val 7 0
def EndP.first (e : EndP) : Nat := bitsOf e.val 27 8
def EndP.second (e : EndP) : Nat := bitsOf e.val 47 28

/-- Module and local address of an ADDR endpoint (R8). -/
def EndP.module (e : EndP) : Nat := bitsOf e.val 57 44
def EndP.local (e : EndP) : Nat := e.val % 2 ^ 44

/-- Bytes of a unit (R265). -/
def DDesc.unit (d : DDesc) (fmt : Nat) : Nat :=
  if d.kind = .blockCopy then (if d.expo then 1 else 4 * blockBits fmt) else fmtBits fmt / 8

/-- The byte displacement of a row at an endpoint. -/
def rowShift (e : EndP) (ix : List Nat) : Int := (List.zip e.str ix).foldl (fun a p => a + p.1 * (p.2 : Int)) 0

/-- The local address of a row of an ADDR endpoint. -/
def DDesc.rowAddr (d : DDesc) (e : EndP) (r : Nat) : Nat := (((e.local : Int) + rowShift e (d.index r)) % 2 ^ 44).toNat

/-! ### Checks (R267, R268) -/

/-- The window of R231 that an ADDR endpoint's first unit names, in this module or in another. -/
def endWin (s : State) (e : EndP) : Win := if e.module = moduleId s then winIn s e.local else winOf e.local

/-- Base and size of a window; none for a reserved range. -/
def windowOf : Win → Option (Nat × Nat)
  | .unified => some (0, 0x30000000000)
  | .tile c => some (0xE0000000000 + c * 0x2000000, 0x2000000)
  | .slice => some (0xE0010000000, 0x8000000)
  | .ipage c p => some (0xE0020000000 + c * 0x40000 + p * 0x10000, 0x10000)
  | .dmem c => some (0xE0020100000 + c * 0x10000, 0x10000)
  | .regs => none
  | .debug => none
  | .reserved => none

/-- The extent of an ADDR endpoint stays in its window (R268); a reserved first unit passes, register pages and debug windows
do not, nor does an address that names nothing (R358). -/
def addrOk (s : State) (d : DDesc) (e : EndP) : Bool :=
  if bitsOf e.val 63 58 ≠ 0 then false
  else match endWin s e with
    | .regs => false
    | .debug => false
    | .reserved => true
    | _ =>
      match windowOf (endWin s e) with
      | none => false
      | some (base, size) =>
        let span := (List.zip e.str d.cs).map (fun p => p.1 * ((p.2 : Int) - 1))
        let lo := span.foldl (fun a x => a + min x 0) (e.local : Int)
        let hi := span.foldl (fun a x => a + max x 0) (e.local : Int) + ((d.c0 * d.unit e.fmt : Nat) : Int)
        decide ((base : Int) ≤ lo ∧ hi ≤ ((base + size : Nat) : Int))

/-- A TR endpoint fits its tile register (R267 order 5). -/
def trOk (d : DDesc) (e : EndP) (r : TReg) : Bool :=
  let lines := if d.kind = .blockCopy then r.lines else r.u
  let units := if d.kind = .blockCopy then r.perLine else r.v
  r.fits && r.fmt == e.fmt && decide (e.first + d.rows ≤ lines ∧ e.second + d.c0 ≤ units)

/-- The format code is one of R28. -/
def fmtOk (f : Nat) : Bool := decide (1 ≤ f ∧ f ≤ 9)

/-- The cause with which a descriptor is rejected, or none (R267). -/
def rejectCause (s : State) (d : DDesc) (detached : Bool) (src dst : TReg) : Option Nat :=
  if 1 < d.smode ∨ 1 < d.dmode ∨ d.ndim = 0 ∨ 5 < d.ndim ∨ !fmtOk d.sfmt ∨ !fmtOk d.dfmt then some 1
  else if kindOf d.sfmt d.dfmt = none ∨ d.dfmt = 6 ∨ d.dfmt = 7 ∨ (d.expo ∧ d.kind ≠ .blockCopy) ∨
      (d.kind ≠ .blockCopy ∧ ((blockBits d.sfmt ≠ 0 ∧ d.smode = 0) ∨ (blockBits d.dfmt ≠ 0 ∧ d.dmode = 0))) then some 2
  else if (detached ∧ (d.smode = 1 ∨ d.dmode = 1)) ∨ (!detached ∧ d.prog) then some 6
  else if d.rows = 0 then none
  else if (d.smode = 0 ∧ !addrOk s d d.source) ∨ (d.dmode = 0 ∧ !addrOk s d d.dest) then some 3
  else if (d.smode = 1 ∧ !trOk d d.source src) ∨ (d.dmode = 1 ∧ !trOk d d.dest dst) then some 4
  else if d.kind = .load ∧
      (dst.ax ∨ d.dest.second % 32 ≠ 0 ∨ (d.c0 % 32 ≠ 0 ∧ d.dest.second + d.c0 ≠ dst.v)) then some 5
  else none

/-! ### Who and where -/

/-- The core whose tile registers and space 0 a transfer uses: its pusher; a detached one has none. -/
def Xfer.core (x : Xfer) : CoreId := match x.owner with
  | some (n, _) => Fin.ofNat 4 n
  | none => 0

/-- The source lies in another module. -/
def remoteSrc (s : State) (x : Xfer) : Bool :=
  let e := (descOf x.desc).source
  !e.tr && e.module != moduleId s

/-- Pieces of local memory that a row of an endpoint consists of, in order: address and length. -/
def rowPieces (x : Xfer) (e : EndP) (r : TReg) (row : Nat) : List (Nat × Nat) :=
  let d := descOf x.desc
  if !e.tr then [(d.rowAddr e row, d.c0 * d.unit e.fmt)]
  else
    let base := spaceBase x.core r.space
    let a := e.first + row
    if d.kind = .blockCopy then
      (List.range d.c0).map fun i =>
        if d.expo then (base + r.expOff a (e.second + i), 1) else (base + r.mantOff a (e.second + i), r.blockBytes)
    else if r.blocks then
      (List.range d.c0).flatMap (fun i => elemBytes x.core r a (e.second + i))
    else [(base + r.elemOff a e.second, d.c0 * r.width)]

/-- The pieces of a row at its source and at its destination. -/
def srcPieces (x : Xfer) (row : Nat) : List (Nat × Nat) := rowPieces x (descOf x.desc).source (tregOf x.srcReg) row
def dstPieces (x : Xfer) (row : Nat) : List (Nat × Nat) := rowPieces x (descOf x.desc).dest (tregOf x.dstReg) row

/-- Bytes of a row as it is held in the channel: a block source of a widening is held as FP32 codes. -/
def DDesc.rowBytes (d : DDesc) : Nat :=
  if d.kind = .widen ∧ blockBits d.sfmt ≠ 0 then 4 * d.c0 else d.c0 * d.unit d.sfmt

/-- A row through the window of an instruction page or a data memory is made of the aligned words that R11 admits (R158). -/
def rowAligned (w : Win) (a n : Nat) : Bool :=
  match w with
  | .ipage _ _ => a % 4 == 0 && n % 4 == 0
  | .dmem _ => a % 4 == 0 && n % 4 == 0
  | .unified | .tile _ | .slice | .regs | .debug | .reserved => true

/-- The row of a local ADDR endpoint breaks R11. -/
def rowBreaks (s : State) (d : DDesc) (e : EndP) (row : Nat) : Bool :=
  !e.tr && e.module == moduleId s && !rowAligned (winIn s e.local) (d.rowAddr e row) (d.c0 * d.unit e.fmt)

/-- BADACC of a row that breaks R11. The page and offset of its capture are free values: the address lies in no page (DESIGN
CHOICE, log entry 100). -/
def logBadrow (x : Xfer) (wr : Bool) (v : Nat) (s : State) : State :=
  let who := match x.owner with
    | some (c, _) => reqErr (.core (Fin.ofNat 4 c))
    | none => reqErr (x.starter.getD .vesper)
  logEvent 0 0 [(freeOf s).toNat % 2 ^ 24 + (if wr then 2 ^ 24 else 0), who, if wr then v % 2 ^ 32 else 0] (useFree s)

/-- The bytes of a local row, each with its poison mark; zero when the first unit is reserved (R268), or when the row breaks R11
(R158). -/
def readRow (s : State) (x : Xfer) (row : Nat) : List (Byte × Bool) :=
  let d := descOf x.desc
  if d.kind = .widen ∧ blockBits d.sfmt ≠ 0 then
    let r := tregOf x.srcReg
    let u := d.source.first + row
    (List.range d.c0).flatMap fun i =>
      let v := d.source.second + i
      let bad := (elemBytes x.core r u v).any (fun p => poisoned s p.1 p.2)
      (bytesOfNat 4 (fenc 23 (regionVal s x.core r u v))).map (fun b => (b, bad))
  else if (!d.source.tr ∧ winIn s d.source.local = .reserved) ∨ rowBreaks s d d.source row then List.replicate d.rowBytes (0, false)
  else (srcPieces x row).flatMap (fun p => loadMarks s p.1 p.2)

/-- The ranges of unified memory that a row meets: whether written, address, length. -/
def rowRanges (s : State) (x : Xfer) (row : Nat) : List (Bool × Nat × Nat) :=
  let d := descOf x.desc
  [(false, d.source), (true, d.dest)].filterMap fun p =>
    if p.2.tr ∨ p.2.module ≠ moduleId s ∨ winOf p.2.local ≠ .unified then none
    else some (p.1, d.rowAddr p.2 row, d.c0 * d.unit p.2.fmt)

/-- Tiles of a row that are not ready, each with whether it is written (R254). -/
def unreadyTiles (s : State) (x : Xfer) (row : Nat) : List (Nat × Bool) :=
  (rowRanges s x row).flatMap (fun r => (unready s r.1 r.2.1 r.2.2).map (fun t => (t, r.1)))

/-- Every tile of unified memory that a row meets. -/
def rowTiles (s : State) (x : Xfer) (row : Nat) : List Nat := (rowRanges s x row).flatMap (fun r => rangeTiles r.2.1 r.2.2)

/-- The tiles of unified memory that a row writes. -/
def destTiles (s : State) (x : Xfer) (row : Nat) : List Nat :=
  ((rowRanges s x row).filter (·.1)).flatMap (fun r => rangeTiles r.2.1 r.2.2)

/-- The gated core whose memories a row reads, or writes, through a window (R473). -/
def rowAsleep (s : State) (x : Xfer) (write : Bool) (row : Nat) : Option CoreId :=
  let d := descOf x.desc
  let e := if write then d.dest else d.source
  if e.tr ∨ e.module ≠ moduleId s then none else asleepAt s (d.rowAddr e row)

/-- What is in progress on a row's pages ends before the row is judged (R241, R243). -/
def settleRow (x : Xfer) (row : Nat) (s : State) : State :=
  forAll (fun (r : Bool × Nat × Nat) s => settleRange r.2.1 r.2.2 s) (rowRanges s x row) s

/-! ### Loading -/

/-- A transfer loaded into a channel's shadow set. -/
def loadShadow (ch : ChanId) (x : Xfer) (s : State) : State :=
  modChan ch (fun k => { k with shadow := some { x with serial := k.loaded }, loaded := k.loaded + 1 }) s

/-- A transfer of a descriptor, with nothing moved. -/
def newXfer (desc : List Nat) (owner : Option (Nat × Flight)) (starter : Option Req) (ctx : Nat) (src dst : List Nat)
    (srcTag dstTag : Option Nat) (number : Nat) (digestOnly : Bool) : Xfer :=
  { desc := desc, owner := owner, starter := starter, ctx := ctx, srcReg := src, dstReg := dst, srcTag := srcTag,
    dstTag := dstTag, issued := 0, written := 0, landed := 0, rowsIn := [], unreported := 0, unmapped := false, unalloc := false,
    pageWr := false, number := number, digestOnly := digestOnly, serial := 0, part := 0, back := none,
    wpart := 0, filling := false, counted := 0, step := 0, tagLim := 0, hashed := 0, stop := 0, tainted := false }

/-- DREJECT (R279). -/
def logDreject (ch : ChanId) (cause idx : Nat) (detached : Bool) (s : State) : State :=
  logEvent (dmaPage ch) 0 [dmaNo ch + cause * 2 ^ 8 + idx % 128 * 2 ^ 16 + (if detached then 2 ^ 23 else 0)] s

/-- DMASKIP (R279). -/
def logDmaskip (ch : ChanId) (s : State) : State := logEvent (dmaPage ch) 4 [] s

/-! ### Completion (R269, R271) -/

/-- The active transfer completes: its signal or progress add, and the active set is empty. -/
def finishActive (ch : ChanId) (x : Xfer) (s : State) : State :=
  let s := modChan ch (fun k => { k with active := none }) s
  match x.owner with
  | some (c, fl) => completeFlight (Fin.ofNat 4 c) fl (xferRows x.desc) s
  | none =>
    let s := modChan ch (fun k => { k with lastOutcome := 1 }) s
    if (descOf x.desc).prog then objAdd (fieldOf s 0 (dmaPage ch) (dmaOff ch 0x60) 16 0) (BitVec.ofNat 64 x.unreported) s
    else s

/-- The read-back that a transfer needs has returned: at once for a local destination, and none is issued for one
that is only
digested (R271, R403). -/
def backIn (s : State) (x : Xfer) : Bool :=
  !remoteDst s x || x.digestOnly || x.back == some (x.landed, true, 0)

/-! ### Landing and read-backs (R271, R371) -/

/-- No write of a row of a transfer is outstanding. -/
def rowLanded (s : State) (ch serial row : Nat) : Bool :=
  s.txn.tags.all (fun t => t.2.timedOut || t.2.use != .rowWrite ch serial row)

/-- Rows whose writes have landed, in order: each is counted in DMA_ROWS, and toward the progress of its transfer. -/
def landRows (ch serial : Nat) : Nat → State → State
  | 0, s => s
  | n + 1, s =>
    match xferOf s ch serial with
    | none => s
    | some x =>
      let c : ChanId := Fin.ofNat 40 ch
      if x.landed < x.written ∧ rowLanded s ch serial x.landed = true then
        landRows ch serial n (bumpPair (dmaPage c) (dmaOff c 0x78) 1
          (modXfer ch serial (fun y => { y with landed := y.landed + 1, unreported := y.unreported + 1 }) s))
      else s

/-- The last byte of a row at its destination, as module and local address. -/
def lastByteOf (x : Xfer) (row : Nat) : Nat × Nat :=
  let d := descOf x.desc
  (d.dest.module, (d.rowAddr d.dest row + d.c0 * d.unit d.dfmt - 1) % 2 ^ 44)

/-- The read-back that a transfer now needs, as the rows of its progress step, or 0 for the last one, and the row whose last
byte it reads: the last of the step's rows, or the transfer's last one; a transfer that was aborted needs it at its row
boundary (R271, R276). The read-back of a step that ends with the transfer is the last one. -/
def backNeeded (x : Xfer) : Option (Nat × Nat) :=
  let steps := bitOf (x.desc.getD 0 0) 17 && decide (0 < x.step)
  if x.back.isSome ∨ x.landed = 0 then none
  else if x.stop = 1 then (if x.wpart = 0 ∧ x.landed = x.written then some (0, x.landed - 1) else none)
  else if x.landed = xferRows x.desc ∧ !(steps && decide (x.step < x.unreported)) then some (0, x.landed - 1)
  else if steps ∧ x.step ≤ x.unreported then some (x.step, x.landed - x.unreported + x.step - 1)
  else none

/-- A read-back of a remote destination is issued once the writes before it have completed and a tag is free
(R271, R274, R371). -/
def tryBack (ch serial : Nat) (s : State) : State :=
  match xferOf s ch serial with
  | none => s
  | some x =>
    if remoteDst s x ∧ !x.digestOnly ∧ x.stop ≠ 2 then
      match backNeeded x, chanTag s (Fin.ofNat 40 ch) x with
      | some (rows, row), some tag =>
        let a := lastByteOf x row
        let o : Outstanding :=
          { ttype := 1, dest := a.1, flow := ch, addr := a.2, len := 1, issuedAt := 0, use := .readBack ch serial, timedOut := false }
        sendTxn tag o 0 0 [] [] (modXfer ch serial (fun y => { y with back := some (y.landed, false, rows) }) s)
      | _, _ => s
    else s

/-- What has landed of a transfer is counted, and the read-back that it then needs is issued. -/
def settleRows (ch serial : Nat) (s : State) : State :=
  match xferOf s ch serial with
  | none => s
  | some x => tryBack ch serial (landRows ch serial (x.written - x.landed) s)

/-- A descriptor in the shadow set becomes active (R263); a transfer without rows completes at once (R269). -/
def activate (ch : ChanId) (s : State) : State :=
  let k := s.chan ch
  match k.active, k.shadow with
  | none, some x =>
    let s := modChan ch (fun k => { k with active := some x, shadow := none }) s
    if xferRows x.desc = 0 then finishActive ch x s else s
  | _, _ => s

/-! ### Issue (R263, R270, R273, R274) -/

/-- The transfer whose rows the channel issues next. -/
def issuer (k : Chan) : Option Xfer :=
  if k.suspended.isSome then none
  else match k.active with
    | none => none
    | some x =>
      if x.stop ≠ 0 then none
      else if x.issued < xferRows x.desc then some x
      else k.shadow.filter (fun y => decide (y.stop = 0 ∧ y.issued < xferRows y.desc))

/-- The fill level of R273. -/
def fillLevel (s : State) (ch : ChanId) : Nat :=
  let o := fieldOf s 0 (dmaPage ch) (dmaOff ch 0x4C) 16 0
  let f := (rawPair s 0 (dmaPage ch) (dmaOff ch 0x58) + 2 ^ 64 - (objGet s o).toNat) % 2 ^ 64
  if 2 ^ 63 ≤ f then 0 else f

/-- The low mark, and the high mark in force (R273). -/
def lowFill (s : State) (ch : ChanId) : Nat := rawWord s 0 (dmaPage ch) (dmaOff ch 0x50)
def highFill (s : State) (ch : ChanId) : Nat := max (rawWord s 0 (dmaPage ch) (dmaOff ch 0x54)) (lowFill s ch + 1)

/-- Pacing permits the next row. -/
def paceGo (s : State) (ch : ChanId) (x : Xfer) : Bool :=
  let f := fillLevel s ch
  if x.filling then decide (f < highFill s ch) else decide (f ≤ lowFill s ch)

/-- Reads in flight of a channel that satisfy p, by transfer and row, are dropped: their data goes nowhere, and each holds its
tag until it comes (R226, R254). -/
def dropReads (ch : ChanId) (p : Nat → Nat → Bool) (s : State) : State :=
  let turn := fun (o : Outstanding) =>
    match o.use with
    | .rowRead c n r _ => if c == ch.val && p n r then { o with use := .dropped ch.val } else o
    | .dropped _ => o
    | .rowWrite _ _ _ => o
    | .readBack _ _ => o
    | .rop _ => o
    | .pnotice => o
  modTxn (fun t => { t with tags := t.tags.map (fun q => (q.1, turn q.2)) }) s

/-- A transfer whose reads from a row on are begun afresh (R254). -/
def Xfer.backTo (x : Xfer) (row : Nat) : Xfer :=
  { x with issued := row, part := 0, rowsIn := x.rowsIn.filter (fun p => decide (p.1 < row)) }

/-- The channel's reads from row on of a transfer are dropped, and all of the shadow transfer's when the active one stops
(R254, R263). -/
def cutReads (ch : ChanId) (x : Xfer) (row : Nat) (s : State) : State :=
  let k := s.chan ch
  let onActive := (k.active.map (·.serial)) == some x.serial
  let s := dropReads ch (fun n r => if n == x.serial then decide (row ≤ r) else onActive) s
  modChan ch (fun k =>
    { k with
      active := if onActive then k.active.map (·.backTo row) else k.active
      shadow := k.shadow.map (fun y => if onActive then y.backTo 0 else y.backTo row) }) s

/-- A transfer is suspended at a row (R254): its reads from there on are dropped, the row is recorded, the tiles' faults begin,
and the row waits for all of them. -/
def suspend (ch : ChanId) (x : Xfer) (row : Nat) (s : State) : State :=
  let ix := (descOf x.desc).index row
  let i := fun k => ix.getD k 0 % 65536
  let need := unreadyTiles s x row
  let s := modChan ch (fun k => { k with suspended := some (x.serial, row), resumed := none }) (cutReads ch x row s)
  let s := setWord 0 (dmaPage ch) (dmaOff ch 0x44) (i 0 + i 1 * 2 ^ 16) s
  let s := setWord 0 (dmaPage ch) (dmaOff ch 0x48) (i 2 + i 3 * 2 ^ 16) s
  let s := logEvent (dmaPage ch) 3 [dmaNo ch] s
  addWaiter (.chan ch.val) (rowTiles s x row) (forAll (fun (t : Nat × Bool) s => startFault t.1 t.2 (chanWho ch) s) need s)

/-- The suspended row's tiles are ready, no access that came before it waits for one of them (R241), and the transfer resumes
(R254), its row in its place until it has been read and written; a tile that has left HBM since faults again. -/
def resume (ch : ChanId) (s : State) : State :=
  let k := s.chan ch
  match k.suspended with
  | none => s
  | some (serial, row) =>
    let mine := fun (x : Option Xfer) => x.filter (fun y => y.serial == serial)
    match (mine k.active).or (mine k.shadow) with
    | none => modChan ch (fun k => { k with suspended := none }) (dropWaiter (.chan ch.val) s)
    | some x =>
      let s := settleRow x row s
      let left := unreadyTiles s x row
      if !left.isEmpty then forAll (fun (t : Nat × Bool) s => startFault t.1 t.2 (chanWho ch) s) left s
      else if firstWaits s (.chan ch.val) then
        modChan ch (fun k => { k with suspended := none, resumed := some (serial, row) }) s
      else s

/-- The row that resumed has been accessed: it waits for none but these tiles any more, and with none it gives up its place. -/
def leavePlace (ch : ChanId) (x : Xfer) (row : Nat) (tiles : List Nat) (s : State) : State :=
  if (s.chan ch).resumed = some (x.serial, row) then
    if tiles = [] then modChan ch (fun k => { k with resumed := none }) (dropWaiter (.chan ch.val) s)
    else addWaiter (.chan ch.val) tiles s
  else s

/-- A range cut so that no run exceeds m bytes or crosses 4 KiB: offsets and lengths, at most n runs (R366). -/
def cutRuns (m a len : Nat) : Nat → Nat → List (Nat × Nat)
  | 0, _ => []
  | n + 1, off =>
    if len ≤ off then []
    else
      let k := min (min m (4096 - (a + off) % 4096)) (len - off)
      (off, k) :: cutRuns m a len n (off + k)

/-- Requests of a remote row from the byte it has reached, as far as tags go (R274). -/
def requestRow (ch : ChanId) (x : Xfer) (row : Nat) (s : State) : State :=
  let d := descOf x.desc
  let a := d.rowAddr d.source row
  let len := d.rowBytes
  let one := fun (r : Nat × Nat) (st : Bool × State) =>
    if st.1 then
      match chanTag st.2 ch x with
      | none => (false, st.2)
      | some tag =>
        let o : Outstanding :=
          { ttype := 1, dest := d.source.module, flow := ch.val, addr := a + r.1, len := r.2, issuedAt := 0,
            use := .rowRead ch.val x.serial row r.1, timedOut := false }
        (true, modXfer ch.val x.serial (fun y => { y with part := r.1 + r.2 }) (sendTxn tag o 0 0 [] [] st.2))
    else st
  let s := modXfer ch.val x.serial (fun y =>
    if y.part = 0 then { y with rowsIn := mset y.rowsIn row (List.replicate len (0, false)) } else y) s
  ((cutRuns 256 a len (len + 1) x.part).foldl (fun st r => one r st) (true, s)).2

/-- UNMAPPED and UNALLOC, once for the transfer (R232, R237, R268). -/
def logReach (ch : ChanId) (x : Xfer) (row : Nat) (s : State) : State :=
  let d := descOf x.desc
  let here := fun (e : EndP) => !e.tr && e.module == moduleId s
  let ends := [d.source, d.dest].filter here
  let s := match (if x.unmapped then none else ends.find? (fun e => winIn s e.local = .reserved)) with
    | some e => logUnmapped e.local (chanWho ch) (modXfer ch.val x.serial (fun y => { y with unmapped := true }) s)
    | none => s
  let first := ends.findSome? (fun e =>
    if winOf e.local = .unified then firstUnalloc s (d.rowAddr e row) (d.c0 * d.unit e.fmt) else none)
  match (if x.unalloc then none else first) with
  | some a => logUnalloc a (chanWho ch) (modXfer ch.val x.serial (fun y => { y with unalloc := true }) s)
  | none => s

/-- Pages of a row at local unified endpoints are accessed (R250). -/
def touchRow (x : Xfer) (row : Nat) (s : State) : State :=
  let d := descOf x.desc
  forAll (fun (e : EndP) s =>
    if !e.tr ∧ e.module = moduleId s ∧ winOf e.local = .unified then touchPages (d.rowAddr e row) (d.c0 * d.unit e.fmt) s
    else s) [d.source, d.dest] s

/-- A row's issue is counted in DMA_ISSUED, once, and a fill level at the high mark holds the next one (R273). -/
def countIssue (ch : ChanId) (x : Xfer) (row : Nat) (s : State) : State :=
  if (descOf x.desc).pace ∧ x.counted ≤ row then
    let f := dmaOff ch 0x58
    let s := bumpPair (dmaPage ch) f 1 s
    modXfer ch.val x.serial (fun y =>
      { y with counted := row + 1, filling := decide (fillLevel s ch < highFill s ch) }) s
  else s

/-- The next row of a transfer is issued: read at once when it is local, requested when it is remote. -/
def issueRow (ch : ChanId) (x : Xfer) (s : State) : State :=
  let row := x.issued
  let lim := if x.part = 0 then tagMax s ch else x.tagLim
  let step := if x.part = 0 then fieldOf s 0 (dmaPage ch) (dmaOff ch 0x64) 15 0 else x.step
  let x := { x with tagLim := lim, step := step }
  let s := modXfer ch.val x.serial (fun y => { y with tagLim := lim, step := step }) s
  let s := touchRow x row (logReach ch x row (modXfer ch.val x.serial (fun y => { y with filling := true }) s))
  if remoteSrc s x then
    let s := match x.owner with
      | some (c, _) => modCore (Fin.ofNat 4 c) (modTask (fun t => { t with unsample := true })) s
      | none => s
    let s := requestRow ch x row s
    let len := (descOf x.desc).rowBytes
    let full := fun (y : Option Xfer) => y.any (fun z => z.serial == x.serial && decide (len ≤ z.part))
    let k := s.chan ch
    if full k.active || full k.shadow then
      countIssue ch x row (modXfer ch.val x.serial (fun y => { y with issued := row + 1, part := 0 }) s)
    else s
  else
    let bs := readRow s x row
    let s := if rowBreaks s (descOf x.desc) (descOf x.desc).source row then logBadrow x false 0 s else s
    countIssue ch x row
      (modXfer ch.val x.serial (fun y => { y with issued := row + 1, rowsIn := mset y.rowsIn row bs }) s)

/-- A channel issues the read of one row, subject to suspension, pacing, tile faults (R254) and generation tags (R213).
A row issued afresh after a suspension is no further row, and pacing does not hold it (DEDUCED, log entry 23). -/
def rowIssue (ch : ChanId) (s : State) : State :=
  match issuer (s.chan ch) with
  | none => s
  | some x =>
    let row := x.issued
    let d := descOf x.desc
    if d.pace && decide (x.counted ≤ row) && !paceGo s ch x then modXfer ch.val x.serial (fun y => { y with filling := false }) s
    else
    let s := settleRow x row s
    if !(unreadyTiles s x row).isEmpty then suspend ch x row s
    else if waitersBefore s (.chan ch.val) (rowTiles s x row) then s
    else match rowAsleep s x false row with
    | some c => wakeCore c s
    | none =>
      let k := s.core x.core
      let t := d.source.treg
      let tagBad := d.source.tr && (match x.srcTag with
        | some g => tagOf k t (d.source.first + row) != g
        | none => false)
      if tagBad then
        match x.owner with
        | some (c, fl) => if k.guarded then s else scheduleFault (Fin.ofNat 4 c) 1 2 fl.idx t s
        | none => s
      else
        let s := issueRow ch x s
        let issued := fun (y : Option Xfer) => y.any (fun z => z.serial == x.serial && decide (row < z.issued))
        if issued (s.chan ch).active || issued (s.chan ch).shadow then leavePlace ch x row (destTiles s x row) s else s

/-! ### Writing -/

/-- Every byte of an issued row has arrived. -/
def rowIn (s : State) (ch : ChanId) (x : Xfer) (row : Nat) : Bool :=
  decide (row < x.issued) && s.txn.tags.all (fun t => t.2.timedOut || (match t.2.use with
    | .rowRead c n r _ => !(c == ch.val && n == x.serial && r == row)
    | .dropped _ => true
    | .rowWrite _ _ _ => true
    | .readBack _ _ => true
    | .rop _ => true
    | .pnotice => true))

/-- The transfer whose row the channel writes next: the active one until its last row is written, and so has landed
(R272), then the shadow one (R263). -/
def writer (s : State) (ch : ChanId) : Option Xfer :=
  let k := s.chan ch
  let ok := fun (x : Xfer) =>
    x.written < xferRows x.desc && rowIn s ch x x.written && k.suspended != some (x.serial, x.written) &&
      decide (x.stop = 0 ∨ 0 < x.wpart)
  match k.active with
  | none => none
  | some x =>
    if x.landed < xferRows x.desc then (if ok x then some x else none)
    else k.shadow.filter ok

/-- A value from the bytes of a plain element. -/
def plainAt (fmt : Nat) (bs : List Byte) : FVal := plainVal fmt (natOfBytes bs)

/-- Elements of a held row. -/
def rowVals (fmt : Nat) (bs : List Byte) : List FVal :=
  let w := fmtBits fmt / 8
  (List.range (bs.length / w)).map (fun i => plainAt fmt ((bs.drop (w * i)).take w))

/-- A load conversion's row written: each block with its own exponent, rne (R266, R41), and its events (R46, R279). -/
def writeBlocks (ch : ChanId) (x : Xfer) (row : Nat) (vals : List FVal) (s : State) : State :=
  let d := descOf x.desc
  let r := tregOf x.dstReg
  let base := spaceBase x.core r.space
  let n := blockBits r.fmt
  let a := d.dest.first + row
  let covered := (List.range ((d.c0 + 31) / 32)).flatMap (fun j =>
    [(base + r.mantOff a (d.dest.second / 32 + j), r.blockBytes), (base + r.expOff a (d.dest.second / 32 + j), 1)])
  clearWhole covered <| forAll (fun j s =>
    let b := d.dest.second / 32 + j
    let xs := (List.range 32).map (fun i => vals.getD (32 * j + i) (.fin false 0 0))
    let blk := toBlock n false none xs
    let ea := base + r.expOff a b
    let put := fun (a : Nat) (bs : List Byte) (s : State) => taskWrite x.core a bs s
    let s := put ea [BitVec.ofNat 8 blk.e] (put (base + r.mantOff a b) (packMants n blk.ms) s)
    let cap := fun (i : Nat) => [ea % 2 ^ 32, ea / 2 ^ 32 % 2 ^ 12, i]
    let s := match blk.sat with
      | some i => logEvent (dmaPage ch) 1 (cap i) s
      | none => s
    match blk.infloss with
    | some i => logEvent (dmaPage ch) 2 (cap i) s
    | none => s) (List.range ((d.c0 + 31) / 32)) s

/-- Bytes in pieces: each piece with its part of a list. -/
def zipPieces : List (Nat × Nat) → List (Byte × Bool) → List (Nat × List (Byte × Bool))
  | [], _ => []
  | (a, n) :: t, bs => (a, bs.take n) :: zipPieces t (bs.drop n)

/-- Marked bytes written by a transfer to local memory, counted into the digest of a pushed transfer's run. -/
def xferStore (x : Xfer) (a : Nat) (bs : List (Byte × Bool)) (s : State) : State :=
  let s := match x.owner with
    | some (c, _) => noteWrite (Fin.ofNat 4 c) a (bs.map (·.1)) s
    | none => s
  storeMarks a bs s

/-- Pieces of one row written to local memory. -/
def storePieces (x : Xfer) (ps : List (Nat × List (Byte × Bool))) (s : State) : State :=
  clearCovered ps (forAll (fun (p : Nat × List (Byte × Bool)) s => xferStore x p.1 p.2 s) ps s)

/-- A row to an instruction page: withheld unless the page is OPEN, with PAGEWR once for the transfer (R174). -/
def writePage (x : Xfer) (ch : ChanId) (c p a : Nat) (bs : List (Byte × Bool)) (s : State) : State :=
  let core : CoreId := Fin.ofNat 4 c
  if mget PageState.opened (s.core core).ctl.pages p = .opened then xferStore x a bs s
  else if x.pageWr then s
  else
    let s := modXfer ch.val x.serial (fun y => { y with pageWr := true }) s
    logEvent (coreP core 0) 2 [p + a % 0x10000 / 4 * 4] s

/-- A row to an ADDR endpoint of this module; one that breaks R11 is discarded and logged (R158). -/
def writeLocal (x : Xfer) (ch : ChanId) (a : Nat) (bs : List (Byte × Bool)) (s : State) : State :=
  if !rowAligned (winIn s (descOf x.desc).dest.local) a bs.length then
    logBadrow x true (natOfBytes ((bs.take 4).map (·.1))) s
  else
  match winIn s (descOf x.desc).dest.local with
  | .reserved => s
  | .ipage c p => writePage x ch c p a bs s
  | .unified => xferStore x a bs s
  | .tile _ => xferStore x a bs s
  | .slice => xferStore x a bs s
  | .dmem _ => xferStore x a bs s
  | .regs => s
  | .debug => s

/-- A row to another module, digested for a pushed transfer and sent unless the run only digests, as far as tags go. -/
def writeRemote (ch : ChanId) (x : Xfer) (row : Nat) (bs : List (Byte × Bool)) (s : State) : State :=
  let d := descOf x.desc
  let a := d.rowAddr d.dest row
  let bs := if x.tainted then bs.map (fun b => (b.1, true)) else bs
  let len := bs.length
  let g := d.dest.module * 2 ^ 44 + a
  let s := match x.owner with
    | some (c, _) =>
      if x.hashed ≤ row then
        let s := modXfer ch.val x.serial (fun y => { y with hashed := row + 1 }) s
        modCore (Fin.ofNat 4 c) (modTask (fun t =>
          let h := (mget 0 t.digest.remote x.number + writeHash g (bs.map (·.1))) % 2 ^ 64
          { t with digest := { t.digest with remote := mset t.digest.remote x.number h } })) s
      else s
    | none => s
  if x.digestOnly then modXfer ch.val x.serial (fun y => { y with wpart := len }) s
  else
    let one := fun (r : Nat × Nat) (st : Bool × State) =>
      if st.1 then
        match chanTag st.2 ch x with
        | none => (false, st.2)
        | some tag =>
          let part := (bs.drop r.1).take r.2
          let o : Outstanding :=
            { ttype := 2, dest := d.dest.module, flow := ch.val, addr := a + r.1, len := r.2, issuedAt := 0,
              use := .rowWrite ch.val x.serial row, timedOut := false }
          (true, modXfer ch.val x.serial (fun y => { y with wpart := r.1 + r.2 })
            (sendTxn tag o 2 0 (part.map (·.1)) (badFlits 24 part) st.2))
      else st
    ((cutRuns 4096 a len (len + 1) x.wpart).foldl (fun st r => one r st) (true, s)).2

/-- The row's bytes at their destination. -/
def writeRow (ch : ChanId) (x : Xfer) (row : Nat) (bs : List (Byte × Bool)) (s : State) : State :=
  let d := descOf x.desc
  match d.kind with
  | .load => writeBlocks ch x row (rowVals d.sfmt (bs.map (·.1))) s
  | _ =>
    let bs := if d.kind = .widen ∧ blockBits d.sfmt = 0 then
        (rowVals d.sfmt (bs.map (·.1))).flatMap (fun v => (bytesOfNat 4 (fenc 23 v)).map (fun b => (b, false)))
      else bs
    if d.dest.tr then storePieces x (zipPieces (dstPieces x row) bs) s
    else if d.dest.module = moduleId s then writeLocal x ch (d.rowAddr d.dest row) bs s
    else writeRemote ch x row bs s

/-- A row's write has been issued whole: its tag (R211), and, when it lands, counters and the next read-back. -/
def rowDone (ch : ChanId) (x : Xfer) (row : Nat) (s : State) : State :=
  let d := descOf x.desc
  let s := match x.owner, x.dstTag with
    | some (c, _), some g =>
      if d.dest.tr then modCore (Fin.ofNat 4 c) (setTag d.dest.treg (d.dest.first + row) g) s else s
    | _, _ => s
  settleRows ch.val x.serial
    (modXfer ch.val x.serial (fun y => { y with written := row + 1, wpart := 0, rowsIn := mdel y.rowsIn row }) s)

/-- Poison consumed by a conversion (R413): the task is stopped, or the detached transfer aborted, and the job contained. -/
def consumeXfer (ch : ChanId) (x : Xfer) (a : Nat) (s : State) : State :=
  match x.owner with
  | some (c, _) => consumeBy (chanWho ch) (Fin.ofNat 4 c) a s
  | none => consumePoison s.bnd.step x.ctx (chanWho ch) a (abortWhere (fun y => y.serial == x.serial) (Fin.ofNat 8 (dmaNo ch)) s)

/-- A row has been written whole: it is counted, and a transfer that a stop of its task cut ends with it (R225). -/
def closeRow (ch : ChanId) (x : Xfer) (row : Nat) (s : State) : State :=
  let s := leavePlace ch x row [] (rowDone ch x row s)
  if x.stop = 2 then
    modChan ch (fun k =>
      if (k.active.map (·.serial)) == some x.serial then dropActive { x with written := row + 1 } k
      else dropShadow { x with written := row + 1 } k) s
  else s

/-- A row's data is in and its write, or conversion, is made. -/
def rowWrite (ch : ChanId) (s : State) : State :=
  match writer s ch with
  | none => s
  | some x =>
    let row := x.written
    let d := descOf x.desc
    let bs := mget [] x.rowsIn row
    let converts := d.kind == .load || d.kind == .widen
    let s := if x.wpart = 0 then settleRow x row s else s
    if x.wpart = 0 ∧ !(unreadyTiles s x row).isEmpty then suspend ch x row s
    else if x.wpart = 0 ∧ waitersBefore s (.chan ch.val) (rowTiles s x row) then s
    else match rowAsleep s x true row with
    | some c => wakeCore c s
    | none =>
      match (if converts then bs.findIdx? (·.2) else none) with
      | some k =>
        let a := ((firstPoison s (srcPieces x row))).getD (d.rowAddr d.source row + k)
        consumeXfer ch x a s
      | none =>
        let s := writeRow ch x row bs s
        if remoteDst s x then
          let k := s.chan ch
          let full := fun (y : Option Xfer) => y.any (fun z => z.serial == x.serial && decide (bs.length ≤ z.wpart))
          if full k.active || full k.shadow then closeRow ch x row s else s
        else closeRow ch x row s

/-- The active transfer completes once its last row is written and its read-back has returned (R271); one that was aborted
ends once the read-back of its last whole row has (R276). -/
def xferDone (ch : ChanId) (s : State) : State :=
  match (s.chan ch).active with
  | none => s
  | some x =>
    if x.stop = 1 then
      if 0 < x.wpart ∨ x.landed < x.written then s
      else if backIn s x then finishAbort ch (dmaNo ch) x s
      else tryBack ch.val x.serial s
    else if x.landed < xferRows x.desc then s
    else if backIn s x then finishActive ch x s
    else tryBack ch.val x.serial s

/-- The rows that a progress add of a detached transfer now adds: those of a step whose read-back has returned, or of one that
has been written to a local destination (R271); 0 for none. -/
def progressDue (s : State) (x : Xfer) : Nat :=
  if x.owner.isSome ∨ !(descOf x.desc).prog then 0
  else if remoteDst s x then
    match x.back with
    | some (_, true, n) => n
    | some (_, false, _) => 0
    | none => 0
  else if x.step ≤ x.unreported ∧ x.stop = 0 then x.step
  else 0

/-- A progress add: of the active transfer, or of the shadow one for rows that it wrote early (R263). -/
def progress (ch : ChanId) (s : State) : State :=
  let k := s.chan ch
  match (k.active.toList ++ k.shadow.toList).find? (fun x => decide (0 < progressDue s x)) with
  | none => s
  | some x =>
    let n := progressDue s x
    let s := modXfer ch.val x.serial (fun y => { y with unreported := y.unreported - n, back := none }) s
    tryBack ch.val x.serial (objAdd (fieldOf s 0 (dmaPage ch) (dmaOff ch 0x60) 16 0) (BitVec.ofNat 64 n) s)

end Sys2Proof.Machine
end

