-- ==== Sys2Proof/Machine/Transactions.lean ====
section
/-! DEFINITION. Transactions (R358 to R377): what a target performs, what a requester does with a reply or without one, remote
operations of the requesters' registers, and forwarders. -/
namespace Sys2Proof.Machine

/-! ### The target (R359, R366, R369) -/

/-- Memory that a transaction reaches (R359). -/
def fabricReach (s : State) (a : Nat) : Bool :=
  match winIn s a with
  | .unified => true
  | .tile _ => true
  | .slice => true
  | .ipage _ _ => false
  | .dmem _ => false
  | .regs => false
  | .debug => false
  | .reserved => false

/-- The status of an access of n bytes at a target (R359, R366, R368), 0 when it is to be performed. -/
def targetStatus (s : State) (a n : Nat) : Nat :=
  if !fabricReach s a then 2
  else if (firstUnalloc s a n).isSome ∧ winOf a = .unified then 1
  else 0

/-- The events of a requester's access that is not performed (R232, R237, R261). -/
def logTarget (who a n st : Nat) (s : State) : State :=
  if st = 2 then logUnmapped a who s
  else if st = 1 then logUnalloc ((firstUnalloc s a n).getD a) who s
  else s

/-- Bytes with the marks of the flits that carried them (R372). -/
def markFlits (off : Nat) (bad : List Nat) (bs : List Byte) : List (Byte × Bool) :=
  (List.range bs.length).map (fun k => (bs.getD k 0, bad.contains ((off + k) / 240)))

/-- The message of the outbox that a further sub-reply joins: the last one of its destination, VC and FLOW, when it carries
sub-replies of that type and has room within 3,840 payload bytes (R367). -/
def joinable (s : State) (m : Msg) (ttype vc n : Nat) : Option Msg :=
  match s.ick.outbox.reverse.find? (fun x => x.dest == m.src && x.vc == vc && x.flow == m.flow) with
  | none => none
  | some x =>
    match x.body with
    | .reply t _ => if t = ttype ∧ (payloadBytes x).length + n ≤ 3840 then some x else none
    | .txn _ _ => none
    | .red _ => none
    | .mgmt _ => none
    | .other _ => none

/-- A message with a further sub-reply. -/
def withSub (ttype : Nat) (r : SubReply) (bs : List (Byte × Bool)) (x : Msg) : Msg :=
  match x.body with
  | .reply _ rs =>
    { x with
      bad := (badFlits ((payloadBytes x).length + 16) bs).foldl kins x.bad
      body := .reply ttype (rs ++ [r]) }
  | .txn _ _ => x
  | .red _ => x
  | .mgmt _ => x
  | .other _ => x

/-- A sub-reply with its data and their marks, on the VC of its type with the request's FLOW: it joins the message of that flow
that is ready and has not begun, else a message of its own carries it (R361, R364, R367). -/
def sendReply (m : Msg) (ttype vc tag st lenm1 : Nat) (bs : List (Byte × Bool)) (s : State) : State :=
  let r : SubReply := { tag := tag, status := st, lenm1 := lenm1, data := bs.map (·.1) }
  match joinable s m ttype vc (16 + bs.length) with
  | some x =>
    modIck (fun k => { k with outbox := k.outbox.map (fun y => if y = x then withSub ttype r bs y else y) }) s
  | none => sendMsg m.src vc m.flow 1 (badFlits 24 bs) (.reply ttype [r]) s

/-- A range of unified memory is accessed: its pages' ages restart (R250). -/
def touchUnified (a n : Nat) (s : State) : State := if winOf a = .unified then touchPages a n s else s

/-- A message is longer than 18 flits (R366). -/
def tooLong (m : Msg) : Bool := decide (18 < flitCount m)

/-- A READ breaks the limits of R366, as a WRITE does. -/
def readBreaks (m : Msg) (h : TxnHdr) : Bool := decide (256 < h.lenm1 + 1) || crosses4k h.addr (h.lenm1 + 1) || tooLong m
def writeBreaks (m : Msg) (h : TxnHdr) (data : List Byte) : Bool :=
  crosses4k h.addr (h.lenm1 + 1) || data.length != h.lenm1 + 1 || tooLong m

/-- Poisoned data of a request is received, performed or not (R372, R381): the first line marked, or the line that it names. -/
def receiveMarks (a : Nat) (bs : List (Byte × Bool)) (s : State) : State :=
  match bs.findIdx? (·.2) with
  | some k => logPoisonrx ((a + k) / 64 * 64) s
  | none => s

/-- A READ at its target. Data of a read that breaks R366 is stated nowhere: free bytes. -/
def targetRead (m : Msg) (h : TxnHdr) (s : State) : State :=
  let n := h.lenm1 + 1
  let reply := fun (st : Nat) (bs : List (Byte × Bool)) (s : State) => sendReply m 4 1 h.tag st h.lenm1 bs s
  if readBreaks m h then
    let f := freeBytes n s
    reply 3 (f.1.map (fun b => (b, false))) f.2
  else
    let st := targetStatus s h.addr n
    let s := logTarget whoFabric h.addr n st s
    if st = 0 then reply 0 (loadMarks s h.addr n) (touchUnified h.addr n s)
    else reply st (List.replicate n (0, false)) s

/-- A WRITE at its target. -/
def targetWrite (m : Msg) (h : TxnHdr) (data : List Byte) (s : State) : State :=
  let n := h.lenm1 + 1
  let done := fun (st : Nat) (s : State) => sendReply m 5 3 h.tag st h.lenm1 [] s
  let bs := markFlits 24 m.bad data
  let s := receiveMarks h.addr bs s
  if writeBreaks m h data then done 3 s
  else
    let st := targetStatus s h.addr n
    done st (if st = 0 then storeMarks h.addr bs s else logTarget whoFabric h.addr n st s)

/-- The result of an atomic (R369). -/
def atomicResult (aop : Nat) (old x cmp : W64) : W64 :=
  if aop = 1 then old + x
  else if aop = 2 then x
  else if aop = 3 then (if old = cmp then x else old)
  else if aop = 4 then (if old.toNat < x.toNat then x else old)
  else if x.toNat < old.toNat then x else old

/-- An ATOMIC breaks R366. -/
def atomicBreaks (aop a : Nat) : Bool := decide (a % 8 ≠ 0 ∨ aop = 0 ∨ 5 < aop)

/-- A requester's atomic on 8 bytes of local memory: status, old value, state after. An operand that came in a poisoned flit
marks the line (R372). -/
def localAtomic (who : Nat) (bad : Bool) (aop a : Nat) (x cmp : W64) (s : State) : Nat × W64 × State :=
  if atomicBreaks aop a then (3, 0, s)
  else
    let st := targetStatus s a 8
    let s := logTarget who a 8 st s
    if st = 0 then
      let old := BitVec.ofNat 64 (loadN s a 8)
      (0, old, storeAny bad a (bytesOfNat 8 (atomicResult aop old x cmp).toNat) s)
    else (st, 0, s)

/-- An ATOMIC at its target. -/
def targetAtomic (m : Msg) (h : TxnHdr) (data : List Byte) (s : State) : State :=
  let x := BitVec.ofNat 64 (natOfBytes (data.take 8))
  let cmp := BitVec.ofNat 64 (natOfBytes ((data.drop 8).take 8))
  let bs := markFlits 24 m.bad (data.take 16)
  let s := receiveMarks h.addr bs s
  let r := if tooLong m then (3, 0, s) else localAtomic whoFabric (bs.any (·.2)) h.aop h.addr x cmp s
  let reply : TxnHdr := { ttype := 6, status := r.1, tag := h.tag, addr := 0, lenm1 := h.lenm1, aop := 0 }
  sendMsg m.src 1 m.flow 1 [] (.txn reply (bytesOfNat 8 r.2.1.toNat)) r.2.2

/-- The parts of a local range that a transaction reaches (R231, R359), rising: tile memory is one range, of a window for each
core. -/
def reachParts (s : State) (a n : Nat) : List (Nat × Nat) :=
  let wins := [(0, 0x30000000000)] ++ [0, 1, 2, 3].map (fun c => (0xE0000000000 + c * 0x2000000, 0x2000000)) ++
    [(0xE0010000000, 0x8000000)]
  wins.filterMap fun w =>
    let lo := max a w.1
    let hi := min (a + n) (w.1 + w.2)
    if lo < hi ∧ fabricReach s w.1 then some (lo, hi - lo) else none

/-- The first local address of a range that lies in no memory a transaction reaches. -/
def firstUnreached (s : State) (a n : Nat) : Option Nat :=
  let p := (reachParts s a n).foldl (fun p w => if w.1 = p then p + w.2 else p) a
  if p < a + n then some p else none

/-- Lines of a local range poisoned, those of unallocated pages left alone (R373). -/
def poisonAllocated (a n : Nat) (s : State) : State :=
  if winOf a = .unified then
    forAll (fun (x : Nat × Nat) s => if allocated s (pageOf x.1) then poisonRange x.1 x.2 s else s) (pageChunks a n) s
  else poisonRange a n s

/-- The first line of a range that a PNOTICE marks; its address where it marks none (DESIGN CHOICE, log entry 83). -/
def firstMarked (s : State) (a n : Nat) : Nat :=
  let first := fun (w : Nat × Nat) =>
    if winOf w.1 = .unified then ((pageChunks w.1 w.2).find? (fun x => allocated s (pageOf x.1))).map (·.1) else some w.1
  ((reachParts s a n).findSome? first).getD a

/-- A PNOTICE at its target (R373): every allocated line of the range is marked. A line of no memory that a transaction reaches
has no effect, and the status is then UNMAPPED (R359). -/
def targetNotice (m : Msg) (h : TxnHdr) (data : List Byte) (s : State) : State :=
  let len := natOfBytes (data.take 8)
  let done := fun (st : Nat) (s : State) => sendReply m 5 3 h.tag st h.lenm1 [] s
  if h.addr % 64 ≠ 0 ∨ len % 64 ≠ 0 ∨ tooLong m then done 3 (logPoisonrx h.addr s)
  else
    let s := logPoisonrx (firstMarked s h.addr len) s
    let parts := reachParts s h.addr len
    let lost := firstUnreached s h.addr len
    let bare := (parts.filter (fun w => winOf w.1 == .unified)).findSome? (fun w => firstUnalloc s w.1 w.2)
    let st := if lost.isSome then 2 else if bare.isSome then 1 else 0
    let s := match lost with
      | some a => logUnmapped a whoFabric s
      | none => s
    let s := match bare with
      | some a => logUnalloc a whoFabric s
      | none => s
    done st (forAll (fun (w : Nat × Nat) s => poisonAllocated w.1 w.2 s) parts s)

/-! ### Accesses that wait for tiles (R240, R241) -/

/-- The range that a READ, WRITE or ATOMIC of a message accesses: whether written, address, length; none for one that performs
nothing (R366). -/
def txnRange (m : Msg) : Option (Bool × Nat × Nat) :=
  match m.body with
  | .txn h d =>
    if h.ttype = 1 ∧ !readBreaks m h then some (false, h.addr, h.lenm1 + 1)
    else if h.ttype = 2 ∧ !writeBreaks m h d then some (true, h.addr, h.lenm1 + 1)
    else if h.ttype = 3 ∧ !atomicBreaks h.aop h.addr ∧ !tooLong m then some (true, h.addr, 8)
    else none
  | .reply _ _ => none
  | .red _ => none
  | .mgmt _ => none
  | .other _ => none

/-- The range of what waits, when a target performs it (R359, R366); a channel's row is its transfer's. -/
def waitRange (s : State) (w : WaitFor) : Option (Bool × Nat × Nat) :=
  let r := match w with
    | .chan _ => none
    | .msg m => txnRange m
    | .rop _ op a _ _ => if atomicBreaks op a then none else some (true, a, 8)
    | .home _ _ _ => none
    | .window _ => none
  r.filter (fun r => targetStatus s r.2.1 r.2.2 == 0)

/-- Tiles on which an access waits now. -/
def waitNeed (s : State) (r : Option (Bool × Nat × Nat)) : List Nat :=
  match r with
  | some (isW, a, n) => unready s isW a n
  | none => []

/-- The gated core that an access wakes and waits for (R473). -/
def waitCore (s : State) (r : Option (Bool × Nat × Nat)) : Option CoreId := r.bind (fun x => asleepAt s x.2.1)

/-- Tiles of unified memory that an access meets. -/
def waitTiles (r : Option (Bool × Nat × Nat)) : List Nat :=
  match r with
  | some (_, a, n) => if winOf a = .unified then rangeTiles a n else []
  | none => []

/-- The pages that an access meets settle, and the faults of its tiles begin (R241), or its gated core's wake (R473). -/
def beginAccess (who : Nat) (r : Option (Bool × Nat × Nat)) (s : State) : State :=
  match r with
  | some (isW, a, n) =>
    let s := match asleepAt s a with
      | some c => wakeCore c s
      | none => s
    let s := settleRange a n s
    forAll (fun t s => startFault t isW who s) (unready s isW a n) s
  | none => s

/-- An access reaches the migration engine: performed when its tiles are ready, its core awake, and it follows none that waits on
one of them, or that precedes it in its flow; else it waits. -/
def serveOrWait (w : WaitFor) (who : Nat) (perform : State → State) (s : State) : State :=
  let r := waitRange s w
  let tiles := waitTiles r
  let s := beginAccess who r s
  if (waitNeed s r).isEmpty ∧ (waitCore s r).isNone ∧ !waitsBehind s tiles ∧ s.mig.waiters.all (fun x => !sameFlow x.what w) then
    perform s
  else addWaiter w tiles s

/-- A requester's atomic on this module is performed: status and old value (R375). -/
def performRop (code op a : Nat) (x cmp : W64) (s : State) : State :=
  let res := localAtomic (whoReq (reqOfCode code)) false op a x cmp s
  setPair (1 + code) txnPage 0x130 res.2.1.toNat (setRopStat code 0 res.1 res.2.2)

/-- A READ, WRITE or ATOMIC is performed (R369). -/
def performTxn (m : Msg) (s : State) : State :=
  match m.body with
  | .txn h d =>
    if h.ttype = 1 then targetRead m h s
    else if h.ttype = 2 then targetWrite m h d s
    else if h.ttype = 3 then targetAtomic m h d s
    else s
  | .reply _ _ => s
  | .red _ => s
  | .mgmt _ => s
  | .other _ => s

/-- What waits is performed; a channel's row is when its transfer resumes. -/
def performWaiter (w : WaitFor) (s : State) : State :=
  match w with
  | .chan _ => s
  | .msg m => performTxn m s
  | .rop code op a x cmp => performRop code op a x cmp s
  | .home _ _ _ => s
  | .window _ => s

/-- The requester code of R261 of what waits. -/
def waiterWho : WaitFor → Nat
  | .chan ch => chanWho (Fin.ofNat 40 ch)
  | .msg _ => whoFabric
  | .rop code _ _ _ _ => whoReq (reqOfCode code)
  | .home _ _ _ => whoGnomon
  | .window p => whoReq (.func (Fin.ofNat 2 p) 0)

/-- A message or atomic that waits is served when it is the first on its tiles, they are ready, and its core is awake; a tile that
has left HBM since faults again. Meridian serves only while it runs. -/
def serveOne (w : WaitFor) (s : State) : State :=
  match w with
  | .chan _ => s
  | .home _ _ _ => serveHome w s
  | .window _ => s
  | .msg _ | .rop _ _ _ _ _ =>
    if !firstWaits s w ∨ !hbmRuns s then s
    else
      let r := waitRange s w
      let s := beginAccess (waiterWho w) r s
      if (waitNeed s r).isEmpty ∧ (waitCore s r).isNone then performWaiter w (dropWaiter w s) else s

/-- A transaction of a type, with its header and data. -/
def withTxn (m : Msg) (ttype : Nat) (p : TxnHdr → Bool) (f : TxnHdr → List Byte → State → State) (s : State) : State :=
  match m.body with
  | .txn h d => onMsg m (m.kind == 1 && h.ttype == ttype && p h) (f h d) s
  | .reply _ _ => s
  | .red _ => s
  | .mgmt _ => s
  | .other _ => s

/-- An accepted READ, WRITE or ATOMIC reaches the target's memory. -/
def targetAct (m : Msg) (s : State) : State := serveOrWait (.msg m) whoFabric (performWaiter (.msg m)) s

/-- READ. -/
def execRead (m : Msg) (s : State) : Host.Outcome State Fault Refusal :=
  .next (withTxn m 1 (fun _ => true) (fun _ _ s => targetAct m s) s)

/-- WRITE. -/
def execWrite (m : Msg) (s : State) : Host.Outcome State Fault Refusal :=
  .next (withTxn m 2 (fun _ => true) (fun _ _ s => targetAct m s) s)

/-- FADD. An ATOMIC with a reserved AOP is answered ALIGN (R366), whichever row carries it. -/
def execFadd (m : Msg) (s : State) : Host.Outcome State Fault Refusal :=
  .next (withTxn m 3 (fun h => h.aop == 1 || h.aop == 0 || decide (5 < h.aop)) (fun _ _ s => targetAct m s) s)

/-- SWAP. -/
def execSwap (m : Msg) (s : State) : Host.Outcome State Fault Refusal :=
  .next (withTxn m 3 (fun h => h.aop == 2) (fun _ _ s => targetAct m s) s)

/-- CAS. -/
def execCas (m : Msg) (s : State) : Host.Outcome State Fault Refusal :=
  .next (withTxn m 3 (fun h => h.aop == 3) (fun _ _ s => targetAct m s) s)

/-- UMAX. -/
def execUmax (m : Msg) (s : State) : Host.Outcome State Fault Refusal :=
  .next (withTxn m 3 (fun h => h.aop == 4) (fun _ _ s => targetAct m s) s)

/-- UMIN. -/
def execUmin (m : Msg) (s : State) : Host.Outcome State Fault Refusal :=
  .next (withTxn m 3 (fun h => h.aop == 5) (fun _ _ s => targetAct m s) s)

/-- The object and operand of a SOOP (R365, R374). -/
def soopObj (h : TxnHdr) : Nat := h.addr % 2 ^ 17
def soopVal (d : List Byte) : W64 := BitVec.ofNat 64 (natOfBytes (d.take 8))

/-- A SOOP add. A reserved AOP performs nothing, and a SOOP has no reply (R364, R366). -/
def execSoopAdd (m : Msg) (s : State) : Host.Outcome State Fault Refusal :=
  .next (withTxn m 7 (fun h => h.aop != 1) (fun h d s => if h.aop = 0 ∧ !tooLong m then objAdd (soopObj h) (soopVal d) s else s) s)

/-- A SOOP set. One that breaks R366 performs nothing. -/
def execSoopSet (m : Msg) (s : State) : Host.Outcome State Fault Refusal :=
  .next (withTxn m 7 (fun h => h.aop == 1) (fun h d s => if tooLong m then s else objSet (soopObj h) (soopVal d) s) s)

/-- PNOTICE. -/
def execPnotice (m : Msg) (s : State) : Host.Outcome State Fault Refusal :=
  .next (withTxn m 8 (fun _ => true) (fun h d s => targetNotice m h d s) s)

/-- The message has a reserved KIND, or a reserved TTYPE. (DEDUCED, log entry 38.) -/
def reservedMsg (m : Msg) : Bool :=
  m.kind == 0 || decide (3 < m.kind) || (m.kind == 1 && (ttypeOf m == 0 || decide (8 < ttypeOf m)))

/-- A message with a reserved KIND changes no flow state; one with a reserved TTYPE is accepted by R362 first. A fabric
management message, for which the table has no row, is accepted here as R362 and R363 say and does nothing further
(DESIGN CHOICE, log entry 84). -/
def execReservedTtype (m : Msg) (s : State) : Host.Outcome State Fault Refusal :=
  .next (onMsg m (reservedMsg m || m.kind == 3) (if m.kind = 3 then id else logXbadmsg m) s)

/-! ### Replies (R367, R370) -/

/-- REMSTAT for a status other than OK (R368, R381). -/
def logRemstat (st flow dest : Nat) (s : State) : State :=
  if st = 0 then s else logEvent txnPage 1 [st + flow * 2 ^ 4, dest] s

/-- STRAYREPLY (R370). -/
def logStray (s : State) : State := logEvent txnPage 3 [] s

/-- What the completion of a transaction does at its requester: the status, and the bytes of a read with their marks. -/
def completeTxn (u : TagUse) (st : Nat) (bs : List (Byte × Bool)) (s : State) : State :=
  match u with
  | .rowRead ch serial row off => deliverRow ch serial row off bs s
  | .rowWrite ch serial _ => settleRows ch serial s
  | .dropped _ => s
  | .readBack ch serial => modXfer ch serial (fun x => { x with back := x.back.map (fun b => (b.1, true, b.2.2)) }) s
  | .rop code =>
    let s := setRopStat code 0 st s
    if st = 4 then s else setPair (1 + code) txnPage 0x130 (natOfBytes (bs.map (·.1))) s
  | .pnotice => s

/-- Where poisoned read data of a transaction would be marked: the line of the row that it is for; the address read, where the
data goes nowhere (DESIGN CHOICE, log entry 83). -/
def markedAt (s : State) (o : Outstanding) (k : Nat) : Nat :=
  match o.use with
  | .rowRead ch serial row off =>
    match xferOf s ch serial with
    | some x => pieceAddr (dstPieces x row) (off + k) / 64 * 64
    | none => o.addr
  | .dropped _ => o.addr
  | .rowWrite _ _ _ => o.addr
  | .readBack _ _ => o.addr
  | .rop _ => o.addr
  | .pnotice => o.addr

/-- A reply to one outstanding transaction of one of the types named; poisoned data is received with it (R372, R381). -/
def replyTo (m : Msg) (tag st : Nat) (types : List Nat) (bs : List (Byte × Bool)) (s : State) : State :=
  match mfind s.txn.tags tag with
  | none => logStray s
  | some o =>
    if o.timedOut ∨ !types.contains o.ttype then logStray s
    else
      let s := logRemstat st m.flow m.src s
      let s := match bs.findIdx? (·.2) with
        | some k => logPoisonrx (markedAt s o k) s
        | none => s
      completeTxn o.use st bs (releaseTag tag s)

/-- The sub-replies of a message, each at its payload offset. -/
def replySubs (m : Msg) (types : List Nat) : Nat → List SubReply → State → State
  | _, [], s => s
  | off, r :: rest, s =>
    let bs := markFlits (off + 16) m.bad r.data
    replySubs m types (off + 16 + r.data.length) rest (replyTo m r.tag r.status types bs s)

/-- A reply message of a type. -/
def onReply (m : Msg) (ttype : Nat) (types : List Nat) (s : State) : State :=
  match m.body with
  | .reply t rs => onMsg m (m.kind == 1 && t == ttype) (replySubs m types 8 rs) s
  | .txn _ _ => s
  | .red _ => s
  | .mgmt _ => s
  | .other _ => s

/-- RDATA. -/
def execRdata (m : Msg) (s : State) : Host.Outcome State Fault Refusal := .next (onReply m 4 [1] s)

/-- WCOMP. -/
def execWcomp (m : Msg) (s : State) : Host.Outcome State Fault Refusal := .next (onReply m 5 [2, 8] s)

/-- ARESULT. -/
def execAresult (m : Msg) (s : State) : Host.Outcome State Fault Refusal :=
  .next (withTxn m 6 (fun _ => true)
    (fun h d s => replyTo m h.tag h.status [3] ((d.take 8).map (fun b => (b, false))) s) s)

/-! ### Timeouts (R370) -/

/-- TXN_TXTO in Gnomon cycles. -/
def txTimeout (s : State) : Nat :=
  let us := fieldOf s 0 txnPage 0x100 23 0
  usCycles (if us = 0 then 16777216 else us)

/-- The step of core c's task, else the module's own (R397). -/
def coreStep (s : State) (c : Nat) : Nat := ((s.core (Fin.ofNat 4 c)).sched.task.map (·.step)).getD s.bnd.step

/-- The step of a channel's transfer: that of the task that pushed it (R397). -/
def xferStep (s : State) (ch serial : Nat) : Nat :=
  match (xferOf s ch serial).bind (·.owner) with
  | some (c, _) => coreStep s c
  | none => s.bnd.step

/-- The step that a transaction's loss concerns (R397). -/
def useStep (s : State) : TagUse → Nat
  | .rowRead ch serial _ _ => xferStep s ch serial
  | .rowWrite ch serial _ => xferStep s ch serial
  | .readBack ch serial => xferStep s ch serial
  | .rop code => if code < 4 then coreStep s code else s.bnd.step
  | .dropped _ => s.bnd.step
  | .pnotice => s.bnd.step

/-- A transaction times out: a read delivers poisoned bytes whose values nothing states, a write is followed by a PNOTICE. -/
def timeOut (tag : Nat) (s : State) : State :=
  match mfind s.txn.tags tag with
  | none => s
  | some o =>
    if o.timedOut then s
    else
      let s := advanceTo (o.issuedAt + txTimeout s) s
      let s := chargeClass 5 (useStep s o.use) (logEvent txnPage 0 [tag + o.ttype * 2 ^ 20, o.dest] s)
      let s := modTxn (fun t => { t with tags := mset t.tags tag { o with timedOut := true } }) s
      match o.use with
      | .rowRead _ _ _ _ =>
        let f := freeBytes o.len s
        completeTxn o.use 4 (f.1.map (fun b => (b, true))) f.2
      | .dropped _ => s
      | .rowWrite _ _ _ => completeTxn o.use 4 [] (sendPnotice o.dest o.addr o.len s)
      | .readBack _ _ => completeTxn o.use 4 [] s
      | .rop _ => completeTxn o.use 4 [] s
      | .pnotice => s

/-- A reply does not arrive in time. -/
def execTxtimeout (tag : BitVec 17) (s : State) : Host.Outcome State Fault Refusal := .next (timeOut tag.toNat s)

/-- A timed-out tag returns to the pool a further TXN_TXTO later. -/
def execTagRelease (tag : BitVec 17) (s : State) : Host.Outcome State Fault Refusal :=
  match mfind s.txn.tags tag.toNat with
  | none => .next s
  | some o =>
    .next (if o.timedOut then releaseTag tag.toNat (advanceTo (o.issuedAt + 2 * txTimeout s) s) else s)

/-! ### Remote operations (R375, R376) -/

/-- ROPSKIP. -/
def logRopskip (s : State) : State := logEvent txnPage 5 [] s

/-- The FLOW of a requester's remote operations (R361). -/
def ropFlow : Req → Nat
  | .core c => 40 + c.val
  | .func p _ => 49 + p.val
  | .vesper => 51

/-- A task that issues a non-held remote operation commits unsampled (R402). -/
def unsampleReq (r : Req) (s : State) : State :=
  match r with
  | .core c => modCore c (modTask (fun t => { t with unsample := true })) s
  | .func _ _ => s
  | .vesper => s

/-- An atomic of a requester, here or at another module: BUSY until its result is in. (DEDUCED, log entry 57.) -/
def ropAtomic (r : Req) (op : Nat) (s : State) : State :=
  let b := reqBank r
  let a := rawPair s b txnPage 0x110
  let x := rawPair s b txnPage 0x118
  let cmp := rawPair s b txnPage 0x120
  let s := setRopStat (reqCode r) 1 0 (unsampleReq r s)
  if bitsOf a 57 44 = moduleId s then
    let w : WaitFor := .rop (reqCode r) op (a % 2 ^ 44) (BitVec.ofNat 64 x) (BitVec.ofNat 64 cmp)
    serveOrWait w (whoReq r) (performWaiter w) s
  else
    let o : Outstanding :=
      { ttype := 3, dest := bitsOf a 57 44, flow := ropFlow r, addr := a % 2 ^ 44, len := 8, issuedAt := 0,
        use := .rop (reqCode r), timedOut := false }
    issueTxn o 0 op (bytesOfNat 8 x ++ bytesOfNat 8 cmp) s

/-- A SOOP sent to a module, or performed here. -/
def soopTo (dest obj flow : Nat) (isSet : Bool) (v : W64) (s : State) : State :=
  if dest = moduleId s then (if isSet then objSet obj v s else objAdd obj v s)
  else
    let h : TxnHdr := { ttype := 7, status := 0, tag := 0, addr := obj, lenm1 := 7, aop := if isSet then 1 else 0 }
    sendMsg dest 7 flow 1 [] (.txn h (bytesOfNat 8 v.toNat)) s

/-- The last message that was offered to the fabric is a requester's SOOP: BUSY until it leaves (R375). -/
def holdBusy (code : Nat) (s : State) : State :=
  match s.ick.outbox.getLast? with
  | some m => modTxn (fun t => { t with leaving := t.leaving ++ [(code, m)] }) (setRopStat code 1 0 s)
  | none => s

/-- A SOOP of a requester, sent at once or held to its task's commit. -/
def ropSoop (r : Req) (isSet held : Bool) (s : State) : State :=
  let b := reqBank r
  let a := rawPair s b txnPage 0x110
  let x := BitVec.ofNat 64 (rawPair s b txnPage 0x118)
  let dest := bitsOf a 57 44
  let obj := bitsOf a 16 0
  let s := setRopStat (reqCode r) 0 0 s
  match r, held with
  | .core c, true =>
    recordHeld c (if isSet then .remoteSet dest obj x (ropFlow r) else .remoteAdd dest obj x (ropFlow r)) s
  | _, _ =>
    let s := soopTo dest obj (ropFlow r) isSet x (unsampleReq r s)
    if dest = moduleId s then s else holdBusy (reqCode r) s

/-- HELD is permitted: a control core with a task running (R375). -/
def heldOk (s : State) (r : Req) : Bool :=
  match r with
  | .core c => (s.core c).live
  | .func _ _ => false
  | .vesper => false

/-- A write of TXN_ROPCMD (R375). -/
def ropCommand (r : Req) (op : Nat) (held : Bool) (s : State) : State :=
  let atomic := decide (1 ≤ op ∧ op ≤ 5)
  let b := reqBank r
  if bitOf (rawWord s b txnPage 0x12C) 0 ∨ !(atomic || op == 8 || op == 9) ∨ (held ∧ (atomic ∨ !heldOk s r)) then logRopskip s
  else if bitsOf (rawPair s b txnPage 0x110) 63 58 ≠ 0 then setRopStat (reqCode r) 0 5 s
  else if atomic then ropAtomic r op s
  else ropSoop r (op == 9) held s

/-! ### Forwarders (R377) -/

/-- A forwarder fires, while Meridian is in RUN (R470). -/
def fireForwarder (fw : Nat) (s : State) : State :=
  let b := entryBank fw
  let cfg := rawWord s b txnPage 0x144
  let thr := rawPair s b txnPage 0x148
  if s.power.meridian = 2 ∧ bitOf cfg 31 ∧ thr ≤ (objGet s (bitsOf cfg 16 0)).toNat then
    let s := forAll (fun k s =>
      let w := rawWord s b txnPage (0x154 + 4 * k)
      if bitOf w 31 then soopTo (bitsOf w 13 0) (bitsOf w 30 14) 52 false 1 s else s) [0, 1, 2, 3] s
    let s := setPair b txnPage 0x148 ((thr + rawWord s b txnPage 0x150) % 2 ^ 64) s
    setPair b txnPage 0x168 (min (rawPair s b txnPage 0x168 + 1) (2 ^ 64 - 1)) s
  else s

/-- A forwarder whose object reaches its threshold. -/
def execForwarderFire (fw : BitVec 10) (s : State) : Host.Outcome State Fault Refusal := .next (fireForwarder fw.toNat s)

end Sys2Proof.Machine
end

