-- ==== Sys2Proof/Machine/RunOps.lean ====
section
/-! DEFINITION. The scheduler's operations (R206 to R208, R214 to R217, R225) and the runs of a task with their outcomes (R402 to
R408). -/
namespace Sys2Proof.Machine

/-! ### Units and the logbook (R401, R407) -/

/-- A transient of a unit (R407): logged, and entered as recurring when the unit had another within REL_RECURWIN. -/
def logTransient (cls idx detail : Nat) (s : State) : State :=
  let u := unitKey cls idx
  let last := mfind s.rel.lastTransient u
  let again := match last with
    | some h => decide (s.power.hours ≤ h + fieldOf s 0 relPage 0x10C 15 0)
    | none => false
  let s := modRel (fun r => { r with lastTransient := mset r.lastTransient u s.power.hours })
    (logEvent relPage 1 [cls + idx * 2 ^ 8] s)
  if again then queueLog 1 cls idx detail s else s

/-! ### Slots (R204 to R207) -/

/-- A word of a task slot. -/
def slotWord (s : State) (c : CoreId) (n off : Nat) : Nat := rawWord s 0 (tsPage c n) (tsOff n + off)

/-- Every condition of the slot in force has reached its threshold (R207). -/
def slotReady (s : State) (c : CoreId) (n : Nat) : Bool :=
  [0, 1, 2, 3].all fun k =>
    let w := slotWord s c n (0x30 + 4 * k)
    !bitOf w 31 || decide (rawPair s 0 (tsPage c n) (tsOff n + 0x10 + 8 * k) ≤ (objGet s (bitsOf w 16 0)).toNat)

/-- The slot's page, entry index and priority. -/
def slotPage (s : State) (c : CoreId) (n : Nat) : Nat := bitsOf (slotWord s c n 0) 15 14
def slotEntry (s : State) (c : CoreId) (n : Nat) : Nat := bitsOf (slotWord s c n 0) 13 0
def slotPrio (s : State) (c : CoreId) (n : Nat) : Nat := bitsOf (slotWord s c n 0) 17 16

/-- A context is enabled. -/
def ctxEnabled (s : State) (ctx : Nat) : Bool := fieldOf s (entryBank ctx) 0x009 0x104 0 0 == 1

/-- A WAITING slot is eligible (R208). -/
def eligible (s : State) (c : CoreId) (n : Nat) : Bool :=
  (slotOf (s.core c) n).state == 1 && slotReady s c n &&
    mget PageState.opened (s.core c).ctl.pages (slotPage s c n) == .ready && ctxEnabled s (slotCtx s c n)

/-- The eligible slots of a core. -/
def eligibleSlots (s : State) (c : CoreId) : List Nat :=
  ((s.core c).sched.slots.map (·.1)).filter (eligible s c)

/-- Highest priority first, then the lowest arming sequence number. -/
def chooseSlot (s : State) (c : CoreId) : Option Nat :=
  (eligibleSlots s c).foldl (fun best n => match best with
    | none => some n
    | some m =>
      let pn := slotPrio s c n
      let pm := slotPrio s c m
      if pm < pn ∨ (pn = pm ∧ (slotOf (s.core c) n).seq < (slotOf (s.core c) m).seq) then some n else some m) none

/-! ### Starting and restarting a task (R208, R215, R403) -/

/-- What dispatch and every restart set: bank pointer and banks, tags and counters, generators, and the control core at its
entry. -/
def prepareRun (ctxSeed key : W64) (page entry : Nat) (k : Core) : Core :=
  { k with
    ctl := { k.ctl with
      running := true, ended := false, page := page, pc := entry, cyc := 0, ready := [], waitcy := none, regWait := none,
      sopWait := none }
    queues := { k.queues with flights := [] }
    array := Array.reset
    vec := { k.vec with genSeed := ctxSeed, genKey := key, genCount := 0, running := [] }
    sched := { k.sched with gens := [], tags := [] } }

/-- A task at its dispatch. -/
def newTask (sampled : Bool) (slot ctx step page entry : Nat) (key seed : W64) : Task :=
  { slot := slot, ctx := ctx, step := step, key := key, seed := seed, page := page, entry := entry, guarded := false,
    halt := .no, pushes := 0, held := [], parts := [], sampled := sampled, matrix := false, unsample := false,
    lineFail := false, grpLeft := false, run := .original, digest := Digest.empty, first := none, second := none, firstHeld := [],
    transfers := 0, runEnded := false }

/-- S56 to S59 (R159). -/
def dispatchRegs (t : Task) (k : Core) : Core :=
  let r := mput (0 : W64) (mput (0 : W64) (mput (0 : W64) (mput (0 : W64) k.ctl.sregs 56 (BitVec.ofNat 64 t.slot)) 57
    (BitVec.ofNat 64 t.ctx)) 58 (BitVec.ofNat 64 t.step)) 59 t.key
  { k with ctl := { k.ctl with sregs := r, saved := r } }

/-- A core may dispatch: Meridian runs, the core is in service and awake, no task runs on it, and no field test runs
or is due
(R208, R417, R419, R470, R473). -/
def mayDispatch (s : State) (c : CoreId) : Bool :=
  let k := s.core c
  s.power.meridian == 2 && !s.rel.out && inService s c && !s.power.gated.contains c.val && !k.sched.waking &&
    k.sched.task.isNone && !k.sched.fieldTest && mget 0 s.rel.ftState c.val != 1

/-- The next vector task of a core is one to sample: every REL_RATE-th that it dispatches (R402). -/
def dueSample (s : State) (c : CoreId) : Bool :=
  let rate := fieldOf s 0 relPage 0x104 15 0
  rate ≠ 0 && ((s.core c).sched.vectorTasks + 1) % rate == 0

/-- A slot's task is dispatched (R208), counted as a vector task, and sampled when its turn has come, until it pushes a matrix
command (R402, log entry 79). -/
def dispatchSlot (c : CoreId) (n : Nat) (s : State) : State :=
  let ctx := slotCtx s c n
  let key := BitVec.ofNat 64 (rawPair s 0 (tsPage c n) (tsOff n + 8))
  let seed := BitVec.ofNat 64 (rawPair s (entryBank ctx) 0x009 0x110)
  let page := slotPage s c n
  let t := newTask (dueSample s c) n ctx s.bnd.step page (slotEntry s c n) key seed
  let s := modCore c (fun k =>
    let k := dispatchRegs t (prepareRun seed key page t.entry k)
    setSlot n 2 { k with sched := { k.sched with task := some t, vectorTasks := k.sched.vectorTasks + 1 } }) s
  bumpPair (coreP c 1) 0x120 1 s

/-- A run of the task begins afresh, in normal mode or guarded (R175, R215, R403). -/
def restartTask (guarded : Bool) (run : RunKind) (t : Task) (k : Core) : Core :=
  let k := prepareRun t.seed t.key t.page t.entry k
  let t := { t with
    guarded := guarded, halt := .no, pushes := 0, held := [], parts := [], lineFail := false, run := run,
    digest := Digest.empty, transfers := 0, runEnded := false }
  setSlot t.slot (if guarded then 3 else 2)
    { k with ctl := { k.ctl with sregs := k.ctl.saved }, sched := { k.sched with task := some t } }

/-! ### The end of a task (R217) -/

/-- The task has ended: its program is over and every command has completed or been skipped. -/
def Core.taskOver (k : Core) : Bool :=
  k.live && k.ctl.ended && k.queues.matrix.isEmpty && k.queues.vector.isEmpty && k.queues.dma.isEmpty &&
    k.queues.reduce.isEmpty && k.queues.flights.isEmpty && (match k.sched.task with
      | some t => !t.runEnded
      | none => false)

/-- Every CLOSED group is released: it becomes FREE and keeps its close record, as under GREL (R66). -/
def releaseClosed (k : Core) : Core :=
  { k with groups := k.groups.map (fun x => if x.state = 3 then { x with state := 0 } else x) }

/-- Steps 1 and 2: CLOSED groups are released; other groups still open are discarded with GRPLEFT once. -/
def leaveGroups (c : CoreId) (s : State) : State :=
  let said := match (s.core c).sched.task with
    | some t => t.grpLeft
    | none => false
  let left := [0, 1, 2, 3].any (fun g => (groupOf (s.core c) g).state == 1) && !said
  let s := modCore c (fun k => discardGroups (releaseClosed k)) s
  if left then logEvent (coreP c 1) 2 [] (modCore c (modTask (fun t => { t with grpLeft := true })) s) else s

/-- A held operation applied (R218, R376). -/
def applyHeld (op : HeldOp) (s : State) : State :=
  match op with
  | .add o v => objAdd o v s
  | .set o v => objSet o v s
  | .remoteAdd m o v flow => soopTo m o flow false v s
  | .remoteSet m o v flow => soopTo m o flow true v s

/-- The slot returns to IDLE and no task runs: the end of a commit or of a cancel. -/
def freeSlot (c : CoreId) (n : Nat) (s : State) : State := modCore c (fun k => setSlot n 0 (endTask k)) s

/-- Steps 3 to 5, with the held operations that apply. -/
def commitTask (c : CoreId) (held : List HeldOp) (s : State) : State :=
  match (s.core c).sched.task with
  | none => s
  | some t =>
    let s := releaseParts c (forAll applyHeld held s)
    bumpPair (coreP c 1) 0x128 1 (freeSlot c t.slot s)

/-- A task that did what R402 names becomes unsampled at the end of its original. -/
def judgeSample (c : CoreId) (s : State) : State :=
  modCore c (modTask (fun t => { t with sampled := t.sampled && !t.unsample })) s

/-- The run is over and waits for the next one or for the outcome. -/
def holdRun (c : CoreId) (f : Task → Task) (s : State) : State :=
  modCore c (modTask (fun t => f { t with runEnded := true })) s

/-- The end of an original (R217, R405, R406). -/
def endOriginal (c : CoreId) (s : State) : State :=
  let s := judgeSample c (leaveGroups c s)
  match (s.core c).sched.task with
  | none => s
  | some t =>
    let keep := fun (t : Task) => { t with first := some t.digest, firstHeld := t.held }
    if t.lineFail then holdRun c (fun t => { keep t with held := [] }) (dropParts c s)
    else if t.sampled then holdRun c keep (releaseParts c s)
    else commitTask c t.held s

/-- Two runs agree (R404); the extents of their transfers are no digest. -/
def Digest.agrees (a b : Digest) : Bool :=
  a.localWrites == b.localWrites && a.remote == b.remote && a.parts == b.parts && a.held == b.held

/-- A run agrees with an earlier one. -/
def agreesWith (t : Task) (d : Option Digest) : Bool := match d with
  | some d => t.digest.agrees d
  | none => false

/-- The end of a check run: CHECK with cause 2 when it differs, or when a check line failed in it. -/
def endCheck (c : CoreId) (s : State) : State :=
  let s := leaveGroups c s
  match (s.core c).sched.task with
  | none => s
  | some t =>
    let s := if t.lineFail || !agreesWith t t.first then logCheck 2 c t s else s
    holdRun c (fun t => { t with second := some t.digest }) s

/-- A task that has ended: what follows depends on its run. -/
def endRun (c : CoreId) (s : State) : State :=
  let k := s.core c
  if k.taskOver then
    match k.sched.task with
    | none => s
    | some t => match t.run with
      | .original => endOriginal c s
      | .check => endCheck c s
      | .deciding _ => holdRun c id (leaveGroups c s)
  else s

/-! ### Outcomes (R406, R407) -/

/-- The check run of a task differed from its original. -/
def mismatched (t : Task) : Bool := t.lineFail || !agreesWith t t.first

/-- A PNOTICE to the destination extent of each remote transfer of the original that p names (R406, R414). -/
def markExtents (t : Task) (p : Nat → Bool) (s : State) : State :=
  match t.first with
  | none => s
  | some d =>
    forAll (fun (x : Nat × Nat × Nat) s =>
      if p x.1 then
        chargeClass 6 t.step (bumpPair relPage 0x150 1 (sendPnotice (bitsOf x.2.1 57 44) (x.2.1 % 2 ^ 44) x.2.2 s))
      else s) d.extents s

/-- The remote digest of transfer n differs between two runs. -/
def remoteDiffers (a b : Option Digest) (n : Nat) : Bool :=
  (a.bind (fun d => mfind d.remote n)) != (b.bind (fun d => mfind d.remote n))

/-- The runs end in containment (R414): no check of the task stays open, and its job is contained. -/
def containTask (c : CoreId) (t : Task) (kind : Nat) (s : State) : State :=
  let s := queueLog kind 0 c.val (taskDetail t) s
  let s := modCore c (modTask (fun t => { t with sampled := false, held := [], parts := [] })) (dropParts c s)
  containJob t.step (jobOf s t.ctx) 2 s

/-- A sampled task's outcome is counted (R423). -/
def countSampled (t : Task) (s : State) : State := if t.sampled then bumpPair relPage 0x140 1 s else s

/-- The outcome of a deciding run after a failing check line (R401, R406, R407). -/
def lineOutcome (c : CoreId) (t : Task) (s : State) : State :=
  if t.lineFail then containTask c t 1 (markExtents t (fun _ => true) s)
  else
    let s := logTransient 0 c.val (taskDetail t) s
    let s := modCore c (modTask (fun t => { t with sampled := false })) s
    commitTask c t.held (markExtents t (remoteDiffers t.first (some t.digest)) s)

/-- The outcome of a deciding run after a mismatch. -/
def mismatchOutcome (c : CoreId) (t : Task) (s : State) : State :=
  let s := countSampled t s
  let differs := remoteDiffers t.first (some t.digest)
  if !t.lineFail && agreesWith t t.first then
    commitTask c t.firstHeld (endEpochs c true (logTransient 0 c.val (taskDetail t) s))
  else if !t.lineFail && agreesWith t t.second then
    commitTask c t.held (markExtents t differs (endEpochs c false (logTransient 0 c.val (taskDetail t) s)))
  else containTask c t 2 (markExtents t differs (endEpochs c false s))

/-- The outcome of a task's runs, once they have ended. -/
def decideOutcome (c : CoreId) (s : State) : State :=
  match (s.core c).sched.task with
  | none => s
  | some t =>
    if !(s.core c).live || !t.runEnded then s
    else match t.run with
      | .original => s
      | .check => if mismatched t then s else commitTask c t.firstHeld (endEpochs c true (countSampled t s))
      | .deciding true => lineOutcome c t s
      | .deciding false => mismatchOutcome c t s

/-- The check run of a sampled task begins. -/
def startCheck (c : CoreId) (s : State) : State :=
  match (s.core c).sched.task with
  | none => s
  | some t =>
    if (s.core c).live && t.runEnded && t.sampled && t.run == .original then modCore c (restartTask false .check t) s else s

/-- The deciding run begins, after a failing check line or a mismatch. -/
def startDeciding (c : CoreId) (s : State) : State :=
  match (s.core c).sched.task with
  | none => s
  | some t =>
    if !(s.core c).live || !t.runEnded then s
    else if t.run = .original ∧ t.lineFail then modCore c (restartTask false (.deciding true) t) s
    else if t.run = .check ∧ mismatched t then modCore c (restartTask false (.deciding false) t) s
    else s

end Sys2Proof.Machine
end

