-- ==== Sys2Proof/Machine/PowerOps.lean ====
section
/-! DEFINITION. Power states, Meridian's start and stop, trips (R469 to R473, R475, R479, R483), clocks (R481, R482) and margin
plans (R484 to R488). -/
namespace Sys2Proof.Machine

/-! ### Losing Meridian (R470, R479) -/

/-- The pages of blocks on Meridian (R503). -/
def meridianPages : List Nat :=
  [0x010, 0x011, 0x012, 0x013, 0x014, 0x018, 0x019, 0x01A, 0x01B] ++
    allCores.flatMap (fun c =>
      (([0, 1, 2, 3, 4, 5, 6, 8, 9, 10, 11] : List Nat) ++ (List.range 32).map (32 + ·)).map (coreP c))

/-- A key of a register word lies on a page of Meridian. -/
def onMeridianKey (k : Nat) : Bool := onMeridian (pageKind (k / 1024 % 16384))

/-- CDCFLUSH of a pair of clock domains, numbered in R476's order. -/
def logCdcflush (a b : Nat) (s : State) : State := logEvent powerPage 6 [min a b + max a b * 2 ^ 4] s

/-- The crossings between clock domains, numbered in R476's order: Gnomon's with Vesper, LP5X, PCI Express, the cores, the
crossbar, the HBM controllers and Ickor, the cores' with the crossbar and Ickor, the crossbar's with the HBM controllers and
Ickor (DEDUCED, log entry 30). -/
def crossings : List (Nat × Nat) :=
  [(0, 1), (1, 2), (1, 3), (1, 4), (1, 5), (1, 6), (1, 7), (4, 5), (4, 7), (5, 6), (5, 7)]

/-- The domains of a list are reset: each crossing with exactly one side among them is flushed, with one CDCFLUSH (R479). -/
def flushCrossings (ds : List Nat) (s : State) : State :=
  forAll (fun (x : Nat × Nat) => logCdcflush x.1 x.2) (crossings.filter (fun x => ds.contains x.1 != ds.contains x.2)) s

/-- Meridian's power goes: the crossings of its domains, core, crossbar, HBM controller and Ickor, are flushed. -/
def flushMeridian (s : State) : State := flushCrossings [4, 5, 6, 7] s

/-- A field test that was running is due again. -/
def interruptTests (s : State) : State :=
  modRel (fun r => { r with ftState := r.ftState.map (fun x => (x.1, if x.2 = 3 then 1 else x.2)) }) s

/-- Meridian's power goes: nothing it holds is kept; only withdrawn cores stay gated. -/
def loseMeridian (s : State) : State :=
  let s := interruptTests (flushMeridian s)
  let t : State := { s with
    regs := s.regs.filter (fun x => !onMeridianKey x.1 || x.1 / 1024 / 16384 == cfgBank)
    latch := s.latch.filter (fun x => !onMeridianKey x.1)
    heldLow := s.heldLow.filter (fun x => !onMeridianKey x.1)
    mem := s.mem.filter (fun x => winOf x.1 == .unified)
    poison := s.poison.filter (fun l => winOf (64 * l) == .unified)
    cores := Vector.replicate 4 Core.reset, chans := Vector.replicate 40 Chan.reset, cal := [], red := Red.reset,
    mig := { s.mig with waiters := s.mig.waiters.filter (fun w => w.isHome || (match w.what with
      | .window _ => true
      | .chan _ => false
      | .msg _ => false
      | .rop _ _ _ _ _ => false
      | .home _ _ _ => true)) }
    ick := Ick.reset, txn := Txn.reset
    power := { s.power with gated := s.power.gated.filter (fun c => withdrawn s 0 c) } }
  forAll serveHome (t.mig.waiters.map (·.what)) t

/-! ### The core clock (R476, R481, R486) -/

/-- A core's voltage at a clock step: the record's trim value plus the guard band (R486). -/
def coreVolt (s : State) (f : Nat) (c : CoreId) : Nat := Config.trimVoltage (trimArea s) c.val f + mget 0 s.power.guardMv c.val

/-- The core clock runs at f MHz, each core at its voltage for it; at 0 it does not run (R476, R486). -/
def setClock (f : Nat) (s : State) : State :=
  modPower (fun p => { p with fcore := f, volts := if f = 0 then [] else allCores.map (coreVolt s f) }) s

/-- THROTTLE, with the first sensor over its limit (R491). -/
def logThrottle (sensor : Nat) (s : State) : State := logEvent powerPage 0 [sensor] s

/-- The clock is lowered to f at most; THROTTLE when it leaves FMAX (R481). -/
def lowerClock (sensor f : Nat) (s : State) : State :=
  let p := s.power
  if p.fcore ≤ f then s
  else
    let s := setClock f s
    if p.fcore = p.fmax then logThrottle sensor s else s

/-! ### Stopping Meridian (R471) -/

/-- Every task slot is IDLE or FAILED, no channel holds a transfer, and no reduction part or retained CONTRIB is held. -/
def quietMeridian (s : State) : Bool :=
  allCores.all (fun c => (s.core c).sched.slots.all (fun x => x.2.state == 0 || x.2.state == 5)) &&
    s.chans.toList.all (fun k => k.active.isNone && k.shadow.isNone) &&
    s.red.used.all (fun x => x.2 == 0) && s.red.members.all (fun x => x.2.retained.isNone)

/-- Meridian leaves RUN, or RETAIN, for another state; on leaving RUN every Ickor port goes DOWN (R335, R470). -/
def leaveRun (dest : Nat) (s : State) : State :=
  let wasRun := s.power.meridian == 2
  let s := modPower (fun p => { p with meridian := 3, stopTo := dest, modState := min p.modState 2 }) s
  if wasRun then forAll portDown allPorts s else s

/-- MSTOP, and MOFF. -/
def stopMeridian (s : State) : State :=
  if s.power.meridian = 2 ∧ quietMeridian s then leaveRun 4 s else logPwrskip s
def offMeridian (s : State) : State :=
  if (s.power.meridian = 2 ∨ s.power.meridian = 4) ∧ quietMeridian s ∧ s.mig.pages.all (fun x => x.2.frame.isNone) then
    leaveRun 0 s
  else logPwrskip s

/-- MSTART: skipped while Gnomon is unpowered or a trip awaits RESTART. (DEDUCED, log entry 69.) -/
def writeMstart (s : State) : State := if s.power.modState < 2 ∨ s.power.tripped then logPwrskip s else startMeridian s

/-- The stop completes, and Meridian's clocks with it (R476); a start that waits for it follows (R489). -/
def stopDone (s : State) : State :=
  if s.power.meridian ≠ 3 then s
  else
    let s := setClock 0 (forAll portDown allPorts s)
    let s := if s.power.stopTo = 0 then loseMeridian s else s
    let s := modPower (fun p => { p with meridian := p.stopTo }) s
    if s.power.startAfter then startMeridian (modPower (fun p => { p with startAfter := false }) s) else s

/-! ### Trips (R483) -/

/-- The trip limit of a temperature sensor, 1 to 15, and its throttle limit (R480); the outlet has none. -/
def tripLimit (n : Nat) : Int :=
  if n ≤ 4 then 110 else if n = 5 then 115 else if n ≤ 13 then 105 else if n = 14 then 100 else 60
def throttleLimit (n : Nat) : Int :=
  if n ≤ 4 then 95 else if n = 5 then 100 else if n ≤ 13 then 95 else if n = 14 then 90 else 45

/-- The sensors, 1 to 15, whose temperature satisfies p with a limit. -/
def sensors (s : State) (p : Nat → Int → Bool) : List Nat :=
  (List.range 15).filterMap fun k => match s.power.temps[k]? with
    | some t => if p (k + 1) t then some (k + 1) else none
    | none => none

/-- Vesper's accesses that waited for Meridian when a trip removes its power (R479): a write is discarded, a read
answers zero. -/
def dropHeld (s : State) : State :=
  let answers := s.vesper.held.filterMap fun h => h.path.map fun p =>
    letter s p 0x7F (match h.value with
      | none => 0 :: bytesOfNat 4 0
      | some _ => [1])
  { s with out := s.out ++ answers, vesper := { s.vesper with held := [] } }

/-- Steps 1 and 2 of a trip: Meridian's power goes, every context is disabled and cancelled, class [6] is charged. It wins over a
RESTART in progress and over a boot in STANDBY, which goes on to stage GNOMON once RESTART is written (R489).
(DEDUCED, log entry 68.) -/
def startTrip (sensor : Nat) (s : State) : State :=
  if s.power.modState = 0 ∨ (s.power.tripped ∧ !s.power.restarting) then s
  else
    let s := loseMeridian (dropHeld s)
    let s := forAll (fun c s => setField (entryBank c) 0x009 0x104 0 0 0 (cancelContext c s)) (entriesWith s 0x009 0x104) s
    let s := chargeClass 6 s.bnd.step s
    setClock 0 (modPower (fun p =>
      { p with meridian := 0, modState := max 1 (min 2 p.modState), startAfter := false, fromOff := true, tripped := true
               tripSensor := sensor, rewriting := true, restarting := false, clamped := false }) s)

/-- A tile's condition after its page has lost its frame: a DIRTY tile's data is gone, and every line of it is poisoned. -/
def loseTile (t : Nat) (s : State) : State :=
  match condOf s t with
  | .dirty =>
    let s := setCond t .low s
    let lines := (List.range 64).map (64 * t + ·)
    { s with
      mem := s.mem.filter (fun x => decide (x.1 / 4096 ≠ t))
      poison := lines.foldl kins s.poison }
  | .clean => setCond t .low s
  | .low => s
  | .zero => s

/-- Gnomon's power goes: its crossings with Vesper, LP5X and PCI Express are flushed (R479; DEDUCED, log entry 30). -/
def flushGnomon (s : State) : State := forAll (fun d => logCdcflush 1 d) [0, 2, 3] s

/-- Steps 3 to 5: the tile table is rewritten, LP5X is in self-refresh, Gnomon is off with the links that end on it, and the
cause is logged. -/
def rewriteDone (s : State) : State :=
  if !s.power.rewriting then s
  else
    let s := forAll (fun (x : Nat × TileCond) => loseTile x.1) s.mig.tiles s
    let s := modMig (fun m =>
      { m with faults := [], pages := m.pages.map (fun x =>
          (x.1, { x.2 with frame := none, moving := 0, wantsFrame := x.2.pinned })) }) s
    let s := forAll (fun p => modHost p dropLink) [0, 1] s
    let s := modPower (fun p => { p with rewriting := false, modState := 1 }) s
    flushGnomon (if s.power.tripSensor = 17 then logEvent powerPage 3 [1] s else logEvent powerPage 2 [s.power.tripSensor] s)

/-- RESTART: skipped while a sensor is within 10 °C of its trip limit, the input is below 40.0 V, or Gnomon is not
yet off. -/
def writeRestart (s : State) : State :=
  if !s.power.tripped then s
  else if s.power.rewriting ∨ s.power.vin < 40000 ∨ sensors s (fun n t => decide (tripLimit n - 10 ≤ t)) ≠ [] then logPwrskip s
  else modPower (fun p => { p with restarting := true }) s

/-- A write of PWR_CTRL: its bits in order. -/
def writePwrCtrl (v : Nat) (s : State) : State :=
  let s := if bitOf v 0 then writeMstart s else s
  let s := if bitOf v 1 then stopMeridian s else s
  let s := if bitOf v 2 then offMeridian s else s
  if bitOf v 3 then writeRestart s else s

/-- A write of PWR_LIMIT or PWR_MLIMIT. -/
def writeLimit (meridian : Bool) (v : Nat) (s : State) : State :=
  if (if meridian then 1050 else 1400) < bitsOf v 10 0 then logPwrskip s
  else storeWord 0 powerPage (if meridian then 0x10C else 0x108) v s

/-! ### Clocks (R475, R476, R481, R482) -/

/-- The core clock limit of the record, never above the module's 1.75 GHz (R23). -/
def clockLimit (s : State) : Nat := min (recordNat s 56 2) 1750

/-- The first sensor over its limit (R481): a temperature, else the module's or Meridian's power. -/
def firstOver (s : State) : Option Nat :=
  match sensors s (fun n t => decide (throttleLimit n ≤ t)) with
  | n :: _ => some n
  | [] =>
    if fieldOf s 0 powerPage 0x108 10 0 < s.power.modW then some 18
    else if fieldOf s 0 powerPage 0x10C 10 0 < s.power.merW then some 19
    else none

/-- The conditions are clear. -/
def allClear (s : State) : Bool :=
  (sensors s (fun n t => decide (throttleLimit n - 5 < t))).isEmpty &&
    decide (s.power.modW + 50 ≤ fieldOf s 0 powerPage 0x108 10 0 ∧ s.power.merW + 50 ≤ fieldOf s 0 powerPage 0x10C 10 0)

/-- The clock after one interval, and the intervals in a row that were clear. -/
def nextClock (s : State) : Nat × Nat :=
  let p := s.power
  let runs := if allClear s then p.clearRuns + 1 else 0
  if (firstOver s).isSome then (max (p.fcore - 25) 875, runs)
  else if 10 ≤ runs then (min (p.fcore + 25) p.fmax, runs)
  else (p.fcore, runs)

/-- R481's step: the millisecond below FMAX is counted; a clamp, or a low input, holds the clock at 875 MHz.
(DEDUCED, log entry 70.) -/
def stepClock (s : State) : State :=
  if s.power.meridian ≠ 2 then s
  else
    let p := s.power
    let s := if p.fcore < p.fmax then bumpPair powerPage 0x138 1 s else s
    let n := nextClock s
    let f := if p.clamped ∨ p.vinLow then min p.fcore 875 else n.1
    let s := modPower (fun p => { p with clearRuns := n.2 }) s
    if f < p.fcore then lowerClock ((firstOver s).getD 0) f s else setClock f s

/-! ### Margin plans (R486 to R488) -/

/-- R486's procedure for one core: guard band and core limit. Delays in thousandths of a picosecond. -/
def planCore (d d0 flimit : Nat) : Nat × Nat :=
  let up : Int := (d : Int) - d0
  let g := 20 + ((max up 0 * 2000 + (d0 : Int) - 1) / (d0 : Int)).toNat
  if 60 < g then
    (60, max 875 ((((flimit : Int) * (102 * (d0 : Int) - 100 * up)) / (100 * (d0 : Int) * 25)) * 25).toNat)
  else (g, flimit)

/-- A stack's planned rate, in units of 0.1 Gb/s, one step lower (R487). -/
def lowerRate (r : Nat) : Nat := if 72 < r then 72 else if 64 < r then 64 else r

/-- A stack's rate in force, never above 8.0 Gb/s (R23), and its planned rate (R487). -/
def rateOf (s : State) (k : Nat) : Nat := mget (min (recordNat s 58 2 / 100) 80) s.power.rates k
def plannedRate (s : State) (k : Nat) : Nat := mget (rateOf s k) s.power.ratePlan k

/-- A core's path delay: the largest of its 32 replicas (R484). -/
def delayOf (replicas : Vector (Vector Nat 32) 4) (c : CoreId) : Nat := (replicas.get c).toList.foldl max 0

/-- Each core's plan: its relative change in parts per million, guard band and limit. -/
def planCores (s : State) (replicas : Vector (Vector Nat 32) 4) : List (Int × Nat × Nat) :=
  allCores.map fun c =>
    let d := delayOf replicas c
    let d0 := Config.delayBaseline (trimArea s) c.val
    ((((d : Int) - d0) * 1000000) / (d0 : Int), planCore d d0 (clockLimit s))

/-- MARGINLOW (R491). -/
def logMargin (cls idx : Nat) (s : State) : State := logEvent powerPage 4 [cls + idx * 2 ^ 8] s

/-- The core plans come into force: guard bands, FMAX over the cores in service, and the clock at most FMAX. -/
def applyCores (plan : List (Int × Nat × Nat)) (s : State) : State :=
  let s := forAll (fun (c : CoreId) s =>
    let x := plan.getD c.val (0, 20, clockLimit s)
    let s := modPower (fun p => { p with guardMv := mset p.guardMv c.val x.2.1 }) s
    if 60 ≤ x.2.1 then logMargin 0 c.val s else s) allCores s
  let fs := (allCores.filter (inService s)).map (fun c => (plan.getD c.val (0, 20, clockLimit s)).2.2)
  let fmax := fs.foldl min (clockLimit s)
  let s := modPower (fun p => { p with fmax := fmax }) s
  setClock (min s.power.fcore fmax) s

/-- The stacks whose eye is too narrow are planned a step below the rate in force; the plan is for the next start from OFF
(R487). -/
def applyStacks (eyes : Vector Nat 8) (s : State) : State :=
  forAll (fun (k : Fin 8) s =>
    let r := rateOf s k.val
    if eyes.get k < 30 ∧ lowerRate r < r then
      logMargin 1 k.val (modPower (fun p => { p with ratePlan := mset p.ratePlan k.val (lowerRate r) }) s)
    else s) (List.finRange 8) s

/-- Corrected symbols of a port since the last entry, saturating at 32 bits. -/
def correctedSince (s : State) (p : PortId) : Nat :=
  min (rawPair s 0 (prtPage p) (prtOff p 0x10) - mget 0 s.power.fecBase p.val) (2 ^ 32 - 1)

/-- An almanac entry (R488). -/
def almanacEntry (s : State) (seq reason : Nat) (low : List Nat) (replanned : Bool) (deltas : List Int) (eyes : List Nat) :
    List Byte :=
  let body :=
    bytesOfNat 4 seq ++ bytesOfNat 4 s.vesper.bootCount ++ bytesOfNat 4 s.power.hours ++ bytesOfNat 1 reason ++
    bytesOfNat 1 (low.foldl (fun a c => a + 2 ^ c) 0 + if replanned then 16 else 0) ++ bytesOfNat 2 s.power.fmax ++
    (List.range 4).flatMap (fun c => bytesOfNat 4 (codeOf 32 (deltas.getD c 0))) ++
    (List.range 4).flatMap (fun c => bytesOfNat 1 (mget 0 s.power.guardMv c)) ++
    (List.range 8).flatMap (fun k => bytesOfNat 1 (plannedRate s k)) ++
    (List.range 8).flatMap (fun k => bytesOfNat 1 (eyes.getD k 0)) ++
    allPorts.flatMap (fun p => bytesOfNat 4 (correctedSince s p)) ++
    (List.range 6).flatMap (fun k => bytesOfNat 1 (codeOf 8 (s.power.hottest.getD k 0))) ++ List.replicate 98 0
  body ++ bytesOfNat 4 (crc32c body).toNat

/-! ### The almanac in the flash (R443, R485, R488) -/

/-- Where entry place i of the almanac lies: 32,768 places of 256 bytes, a ring of 128 sectors of 256 places. -/
def almanacAt (i : Nat) : Nat := 0x5100000 + 256 * (i % 32768)

/-- A little-endian field of the entry at place i. -/
def almanacNat (s : State) (i b n : Nat) : Nat := natOfBytes (flashBytes s (almanacAt i + b) n)

/-- The places whose entry's CRC holds, rising: the others are skipped (R488). -/
def almanacPlaces (s : State) : List Nat := (flashSlots s 0x5100000 256 32768).filter (fun i => flashCrcOk s (almanacAt i) 256)

/-- The place of the entry with the highest sequence number. -/
def lastPlace (s : State) : Option Nat :=
  (almanacPlaces s).foldl (fun o i => match o with
    | none => some i
    | some k => if almanacNat s k 0 4 ≤ almanacNat s i 0 4 then some i else some k) none

/-- The place that the next entry takes: behind the last one, and behind places that hold anything there. -/
def nextPlace (s : State) : Nat :=
  let used := flashSlots s 0x5100000 256 32768
  match lastPlace s with
  | none => (used.map (· + 1)).foldl max 0 % 32768
  | some i => (if used.contains ((i + 1) % 32768) && (i + 1) % 256 != 0 then i + 2 else i + 1) % 32768

/-- What the almanac keeps across power cycles is loaded: the sequence number of its last entry, the hours of operation, and the
planned rates (R447, R485, R487). -/
def loadAlmanac (s : State) : State :=
  match lastPlace s with
  | none => modPower (fun p => { p with alSeq := 0, hours := 0, ratePlan := [] }) s
  | some i => modPower (fun p =>
      { p with alSeq := almanacNat s i 0 4, hours := almanacNat s i 8 4
               ratePlan := (List.range 8).map (fun k => (k, almanacNat s i (36 + k) 1)) }) s

/-- Hours of operation at a time of a boot, as the almanac's entries of that boot show them, for the logbook's entries, which hold
none (R416, R417; DEDUCED, log entry 29). -/
def hoursAt (s : State) (boot cycles : Nat) : Nat :=
  let mine := (almanacPlaces s).filter (fun i => almanacNat s i 4 4 == boot)
  mine.foldl (fun h i => min h (almanacNat s i 8 4)) (match mine with
    | [] => s.power.hours
    | i :: _ => almanacNat s i 8 4) + cycles / 90000000000

/-- An entry joins the almanac, in a sector erased before its first entry, and REPLAN is logged. (DEDUCED, log entry 71.) -/
def recordPlan (reason : Nat) (low : List Nat) (replanned : Bool) (deltas : List Int) (eyes : List Nat) (s : State) : State :=
  let seq := s.power.alSeq + 1
  let e := almanacEntry s seq reason low replanned deltas eyes
  let i := nextPlace s
  let s := programFlash (almanacAt i) e (if i % 256 = 0 then eraseFlash (almanacAt i) 0x10000 s else s)
  let s := modPower (fun p =>
    { p with alSeq := seq, hottest := []
             fecBase := allPorts.map (fun q => (q.val, rawPair s 0 (prtPage q) (prtOff q 0x10))) }) s
  logEvent powerPage 5 [seq] s

/-- A plan of the cores and stacks. -/
def makePlan (reason : Nat) (replicas : Vector (Vector Nat 32) 4) (eyes : Vector Nat 8) (s : State) : State :=
  let plan := planCores s replicas
  let before := (List.range 8).map (plannedRate s)
  let s := modPower (fun p => { p with replicas := replicas.toList.map (·.toList) }) s
  let s := applyStacks eyes (applyCores plan s)
  let low := (List.range 4).filter (fun c => decide (60 ≤ (plan.getD c (0, 0, 0)).2.1))
  recordPlan reason low (before != (List.range 8).map (plannedRate s)) (plan.map (·.1)) eyes.toList s

/-! ### Starting (R472, R497) -/

/-- Meridian enters RUN: after OFF the planned stack rates are in force (R487), its pages but the Ickor page are enabled, the first
start after a boot plans margins, and pinned pages take frames. -/
def startDone (replicas : Vector (Vector Nat 32) 4) (eyes : Vector Nat 8) (s : State) : State :=
  if s.power.meridian ≠ 1 then s
  else
    let s := modPower (fun p =>
      { p with meridian := 2, modState := 3, clearRuns := 0, rates := if p.fromOff then p.ratePlan else p.rates }) s
    let s := setClock (if s.power.vinLow then min 875 s.power.fmax else s.power.fmax) s
    let s := forAll (fun n => setField 0 n 0x008 0 0 1) (meridianPages.filter (· ≠ ickPage)) s
    let s := if s.power.planned then s else makePlan 2 replicas eyes (modPower (fun p => { p with planned := true }) s)
    let s := if pageEn s ickPage then forAll tryTrain allPorts s else s
    feedAll s

/-- RESTART completes: Gnomon is powered, LP5X has left self-refresh, and the ports train; a boot that the trip met in STANDBY goes
on (R489). -/
def finishRestart (s : State) : State :=
  let n := if s.vesper.stage < 7 then 1 else 2
  forAll trainPort [0, 1] (modPower (fun p => { p with restarting := false, tripped := false, modState := n }) s)

/-! ### Power up and down (R512, R513) -/

/-- Every rail goes off: what is kept is in the fuses and the configuration flash, with its boot state, logbook and almanac.
(DESIGN CHOICE, log entry 73.) -/
def powerOff (s : State) : State :=
  { State.reset with
    pending := s.pending, now := s.now, freeCtr := s.freeCtr, out := s.out
    hosts := s.hosts.map (fun h => { HPort.reset with perst := h.perst, refclk := h.refclk })
    vesper := { Vesper.reset with
      flash := s.vesper.flash, revoked := s.vesper.revoked, floor := s.vesper.floor, nonces := s.vesper.nonces }
    power := { Power.reset with
      modEn := s.power.modEn, vin := s.power.vin, fellAt := some s.now, refclk156 := s.power.refclk156 } }

/-- The input is sampled (R475), and with it whether REFCLK156 is there (R514); while the module is OFF what the board supplies
changes and nothing else (R512). -/
def sampleInput (i : Supply) (s : State) : State :=
  let mv := i.mv
  if s.power.modState = 0 then modPower (fun p => { p with vin := mv, refclk156 := i.refclk156 }) s
  else
    let was := s.power.vinLow
    let low := decide (mv < 39000) || (was && decide (mv < 40000))
    let n := if mv < 36000 then s.power.vin36 + 1 else 0
    let s := modPower (fun p => { p with vin := mv, vinLow := low, vin36 := n, refclk156 := i.refclk156 }) s
    let s := if low then lowerClock ((firstOver s).getD 0) 875 s else s
    let s := if low && !was then logEvent powerPage 3 [0] s else s
    if 3 ≤ n then startTrip 17 s else s

/-- The hottest readings since the last almanac entry: cores, Gnomon, HBM3, LP5X, inlet, outlet. -/
def hottestOf (temps old : List Int) : List Int :=
  let top := fun (l : List Int) => l.foldl max (l.headD 0)
  let new := [top (temps.take 4), temps.getD 4 0, top ((temps.drop 5).take 8), temps.getD 13 0, temps.getD 14 0, temps.getD 15 0]
  if old = [] then new else (new.zip old).map (fun x => max x.1 x.2)

/-- The sensors are read (R480, R483). -/
def readSensors (temps : List Int) (modW merW : Nat) (s : State) : State :=
  if s.power.modState = 0 then s
  else
    let s := modPower (fun p => { p with temps := temps, modW := modW, merW := merW, hottest := hottestOf temps p.hottest }) s
    match sensors s (fun n t => decide (tripLimit n ≤ t)) with
    | n :: _ => startTrip n s
    | [] => s

end Sys2Proof.Machine
end

