-- ==== Sys2Proof/Machine/BootOps.lean ====
section
/-! DEFINITION. Vesper's boot (R443 to R454), its images and record, debug unlock (R458 to R460), and the logbook's standing
entries (R416, R451). -/
namespace Sys2Proof.Machine

/-! ### Images (R445, R446) -/

/-- Where slot k lies, and where in it the image of a type does: 1 Vesper, 2 Gnomon, 3 Meridian. -/
def slotAt (k : Nat) : Nat := 0x100000 + 0x2000000 * k
def imageAt (k type : Nat) : Nat := slotAt k + (if type = 1 then 0 else if type = 2 then 0x400000 else 0xC00000)

/-- A field of an image header: n bytes from byte b. -/
def imageNat (s : State) (k type b n : Nat) : Nat := natOfBytes (flashBytes s (imageAt k type + b) n)

/-- The most bytes an image may take. -/
def imageMax (type : Nat) : Nat := if type = 1 then 0x400000 else 0x800000

/-- The SVNs of a bundle's three images are equal. -/
def svnsEqual (s : State) (k : Nat) : Bool :=
  imageNat s k 1 8 4 == imageNat s k 2 8 4 && imageNat s k 2 8 4 == imageNat s k 3 8 4

/-- Why an image fails R446, 0 when it passes. (DEDUCED, log entry 63.) -/
def imageCause (s : State) (k type : Nat) : Nat :=
  let key := imageNat s k type 5 1
  let svn := imageNat s k type 8 4
  let len := imageNat s k type 16 4
  let pub := flashBytes s (imageAt k type + 64) 64
  let head := flashBytes s (imageAt k type) 128
  if imageNat s k type 0 4 ≠ 0x494D474B ∨ imageNat s k type 6 2 ≠ 1 ∨ imageNat s k type 4 1 ≠ type ∨ 3 < key ∨
      imageMax type < len + 256 then 1
  else if bitOf s.vesper.revoked key then 2
  else if Config.sm3 pub ≠ Config.romHash key then 3
  else if svn < s.vesper.floor ∨ !svnsEqual s k then 4
  else if natOfBytes (flashBytes s (imageAt k type + 32) 32) ≠
      natOfBytes (bytesOfNat 32 (Config.sm3 (flashBytes s (imageAt k type + 256) len)).toNat) then 5
  else if !Config.sm2Verify pub head (flashBytes s (imageAt k type + 128) 64) then 6
  else 0

/-- An image is checked: IMGFAIL with type, slot and cause when it fails. -/
def checkImage (k type : Nat) (s : State) : Bool × State :=
  let c := imageCause s k type
  if c = 0 then (true, s) else (false, logEvent vesperPage 0 [type + k * 2 ^ 4 + c * 2 ^ 8] s)

/-! ### Identity (R453) -/

/-- SM3-KDF of a seed, 320 bits, by GB/T 32918.4 (PRESUMED, log entry 108). -/
def kdf320 (seed : BitVec 256) : Nat :=
  let z := (bytesOfNat 32 seed.toNat).reverse
  let part := fun (ct : Nat) => (Config.sm3 (z ++ [0, 0, 0, BitVec.ofNat 8 ct])).toNat
  part 1 * 2 ^ 64 + part 2 / 2 ^ 192

/-- The order n of the SM2 curve (PRESUMED, log entry 108). -/
def sm2Order : Nat := 0xFFFFFFFEFFFFFFFFFFFFFFFFFFFFFFFF7203DF6B21C6052B53BBF40939D54123

/-- The identity private key of a seed, and its public key. -/
def identityKey (seed : BitVec 256) : Nat := 1 + kdf320 seed % (sm2Order - 1)
def identityPublicKey (seed : BitVec 256) : List Byte := Config.sm2PublicKey (identityKey seed)

/-- The identity area: PUF helper data and the certificate chain (R443, R454). -/
def identityBytes (s : State) : List Byte := flashBytes s 0x30000 0x10000

/-- The seed that the array's power-up state gives with the stored helper data, once the check digest confirms it. -/
def reconstruct (s : State) (array : List Byte) : Option (BitVec 256) :=
  let d := Config.pufSeed array (identityBytes s)
  if Config.pufConfirms (identityBytes s) d then some d else none

/-! ### The configuration record (R450, R451) -/

/-- A copy of the record passes: magic, trim length, root key, signature, and identity digest. -/
def recordValid (s : State) (k : Nat) : Bool :=
  let at' := recordAt k
  let len := natOfBytes (flashBytes s (at' + 284) 4)
  let key := (flashByte s (at' + 288 + len)).toNat
  natOfBytes (flashBytes s at' 4) == 0x4746434B && decide (len ≤ 60000) && decide (key ≤ 3) &&
    !bitOf s.vesper.revoked key && Config.sm3 (Config.rootKey key) == Config.romHash key &&
    Config.sm2Verify (Config.rootKey key) (flashBytes s at' (289 + len)) (flashBytes s (at' + 289 + len) 64) &&
    (match s.vesper.seed with
     | some d => flashBytes s (at' + 24) 32 == bytesOfNat 32 (Config.sm3 (identityPublicKey d)).toNat
     | none => false)

/-- A copy's sequence number. -/
def recordSeq (s : State) (k : Nat) : Nat := natOfBytes (flashBytes s (recordAt k + 4) 4)

/-- The valid copy with the higher sequence number. -/
def chooseRecord (s : State) : Option Nat :=
  let v0 := recordValid s 0
  let v1 := recordValid s 1
  if v0 && v1 then some (if recordSeq s 0 < recordSeq s 1 then 1 else 0)
  else if v0 then some 0 else if v1 then some 1 else none

/-- A "cfg" field's value, under the word's Reset value (R15). -/
def setCfg (page off v : Nat) (s : State) : State := setWord cfgBank page off v s

/-- The features that word k of the offers may hold: bits 0 to 6, of a virtual function 0, 1, 4, 5 and 6 (R437). -/
def offerMask (f : Fin 65) (k : Nat) : Nat := if k ≠ 0 then 0 else if f.val = 0 then 0x7F else 0x73

/-- The feature offers of every function (R450). -/
def loadOffers (s : State) : State :=
  forAll (fun (p : Fin 2) s => forAll (fun (f : Fin 65) s => forAll (fun (k : Nat) s =>
    let b := (if f.val = 0 then 84 else 116) + 4 * k
    setCfg (funcPage p f) (0x100 + 4 * k) (Nat.land (recordNat s b 4) (offerMask f k)) s) (List.range 8) s) allFuncs s) [0, 1] s

/-- The Ickor TXEQ presets, 4 bits for each port. -/
def loadTxeq (s : State) : State :=
  forAll (fun (p : PortId) s =>
    setCfg (prtPage p) (prtOff p 0) (recordNat s (72 + p.val / 2) 1 / 16 ^ (p.val % 2) % 16 * 16) s) allPorts s

/-- Every "cfg" field that the record and the almanac hold is loaded (R447): offers, TXEQ, HIF_ADMIN, FMAX, ALM_HOURS and
ALM_SEQ. -/
def loadRecord (s : State) : State :=
  let s := setCfg hostPage 0x108 (recordNat s 65 1 % 4) (loadTxeq (loadOffers s))
  loadAlmanac (modPower (fun p => { p with fmax := clockLimit s }) s)

/-! ### The logbook in the flash (R416, R443) -/

/-- Where entry n of the logbook lies: 524,288 places of 32 bytes. -/
def entryAt (n : Nat) : Nat := 0x4100000 + 32 * n

/-- The bytes of an entry; bits 63 to 44 of the detail of a retirement, which its address leaves free, hold the frame or extent
(DESIGN CHOICE, log entry 29). -/
def entryBytes (e : LogEntry) : List Byte :=
  let body := bytesOfNat 4 e.seq ++ bytesOfNat 4 e.boot ++ bytesOfNat 8 e.cycles ++ bytesOfNat 1 e.kind ++ bytesOfNat 1 e.cls ++
    bytesOfNat 2 e.index ++ bytesOfNat 8 (e.detail % 2 ^ 44 + e.unit * 2 ^ 44)
  body ++ bytesOfNat 4 (crc32c body).toNat

/-- The entry at place n. -/
def readEntry (s : State) (n : Nat) : LogEntry :=
  let nat := fun (b k : Nat) => natOfBytes (flashBytes s (entryAt n + b) k)
  { seq := nat 0 4, boot := nat 4 4, cycles := nat 8 8, kind := nat 16 1, cls := nat 17 1, index := nat 18 2
    detail := nat 20 8 % 2 ^ 44, hours := hoursAt s (nat 4 4) (nat 8 8), unit := nat 20 8 / 2 ^ 44 }

/-- Vesper reads the logbook, skipping an entry whose CRC fails; the next place is behind the last one written. -/
def readLogbook (s : State) : State :=
  let used := flashSlots s 0x4100000 32 524288
  modRel (fun r =>
    { r with logbook := (used.filter (fun n => flashCrcOk s (entryAt n) 32)).map (readEntry s)
             nextSeq := (used.map (· + 1)).foldl max 0 }) s

/-- An entry is appended to the logbook. -/
def appendEntry (e : LogEntry) (s : State) : State :=
  programFlash (entryAt e.seq) (entryBytes e) (modRel (fun r => { r with logbook := r.logbook ++ [e], nextSeq := e.seq + 1 }) s)

/-! ### The logbook at boot (R416, R417, R451) -/

/-- One standing entry is applied: a withdrawal (a core's gates it for good), a retirement, or the module's going out
of service. -/
def applyEntry (e : LogEntry) (s : State) : State :=
  if e.kind = 3 then
    let s := modRel (fun r => { r with withdrawn := kins r.withdrawn (unitKey e.cls e.index) }) s
    if e.cls = 0 then modPower (fun p => { p with gated := kins p.gated e.index }) s else s
  else if e.kind = 4 then
    if e.cls = 1 then modMig (fun m => { m with badFrames := kins m.badFrames e.unit }) s
    else if e.cls = 2 then modMig (fun m => { m with badExtents := kins m.badExtents e.unit }) s
    else s
  else if e.kind = 7 then modRel (fun r => { r with out := true }) s
  else s

/-- The cores in service: those fitted and not withdrawn. -/
def coreMask (s : State) : Nat :=
  allCores.foldl (fun m c => if bitOf (recordNat s 64 1) c.val && !withdrawn s 0 c.val then m + 2 ^ c.val else m) 0

/-- REL_CAP and REL_LOGFREE as they stand (R423). -/
def showCapacity (s : State) : State :=
  setCfg relPage 0x13C (524288 - s.rel.nextSeq)
    (setCfg relPage 0x130 (coreMask s + if s.rel.out then 16 else 0) s)

/-! ### The stages (R447 to R449) -/

/-- The command of a stage acts only while the boot is in that stage; from stage GNOMON on the boot waits out a trip (R483). -/
def inStage (s : State) (n : Nat) : Bool := s.vesper.booting && s.vesper.stage == n && !(decide (6 ≤ n) && s.power.tripped)

/-- The boot goes on to a stage. -/
def toStage (n : Nat) (s : State) : State := modVesper (fun v => { v with stage := n }) s

/-- EN of pages is set by Vesper (R497). -/
def enablePages (ns : List Nat) (s : State) : State := forAll (fun n => setField 0 n 0x008 0 0 1) ns s

/-- Debug is closed on every page (R499): DBG is cleared. -/
def clearDbg (s : State) : State :=
  { s with regs := s.regs.map (fun x =>
      if x.1 % 1024 = 2 ∧ x.1 / 1024 / 16384 = 0 then (x.1, BitVec.ofNat 32 (putBits x.2.toNat 2 2 0)) else x) }

/-- Every scope closes. -/
def closeScopes (s : State) : State := clearDbg (modVesper (fun v => { v with scopes := 0, scopeEnds := [] }) s)

/-- The earliest time at which an open scope closes. -/
def firstEnd (m : Map Nat) : Option Nat :=
  m.foldl (fun o x => match o with
    | none => some x.2
    | some d => some (min d x.2)) none

/-- Every scope whose lifetime has ended at a time closes; with PGDBG, DBG is cleared (R460, R499). -/
def closeEnded (t : Nat) (s : State) : State :=
  let ends := s.vesper.scopeEnds
  let ended := fun (k : Nat) => decide (mget (t + 1) ends k ≤ t)
  let s := modVesper (fun v =>
    { v with scopes := [0, 1, 2].foldl (fun n k => if ended k then putBits n k k 0 else n) v.scopes
             scopeEnds := ends.filter (fun x => decide (t < x.2)) }) s
  if ended 1 then clearDbg s else s

/-- What a boot starts afresh in debug (R459, R460). -/
def freshDebug (s : State) : State :=
  closeScopes (modVesper (fun v =>
    { v with scopesSticky := 0, rejects := 0, locked := false, challenge := none, token := [], eraseUsed := false }) s)

/-- Stage ROM: the boot state is read, the slot is chosen, the boot count advances, PWRGOOD_OUT is released; with both slots failed,
recovery. -/
def romStage (s : State) : State :=
  let s := loadBoot (freshDebug s)
  let v := s.vesper
  let slot := if v.failed.contains v.prefSlot then 1 - v.prefSlot else v.prefSlot
  let lost := v.failed.contains 0 && v.failed.contains 1
  let s := modBoot (fun v => { v with bootCount := v.bootCount + 1 }) s
  let s := modVesper (fun v =>
    { v with slot := slot, trial := v.trialFlag && slot == v.prefSlot, recovery := lost, stopped := false, idOk := false, seed := none
             cfgOk := false, cfgCopy := 0, booting := !lost, stage := if lost then 0 else 1 }) s
  let s := setCfg txnPage 0x108 (s.vesper.bootCount % 256) s
  enablePages [0x000] (modPower (fun p => { p with pwrgood := true }) s)

/-- The slot being booted fails: it is marked, FWFALLBACK is logged, and the boot starts again from stage ROM, with the ports down
until stage HOST (R449). -/
def failSlot (s : State) : State :=
  let k := s.vesper.slot
  let s := modBoot (fun v => { v with failed := kins v.failed k }) s
  let s := modVesper (fun v => { v with fallback := true, stage := 0, booting := true, stopped := false }) s
  let s := forAll (fun p => modHost p (fun h => { dropLink h with enabled := false })) [0, 1] s
  logEvent vesperPage 7 [k * 2 ^ 4] s

/-- Stage PUF. -/
def pufStage (array : List Byte) (s : State) : State :=
  let seed := reconstruct s array
  let s := toStage 2 (modVesper (fun v => { v with seed := seed, idOk := seed.isSome }) s)
  if seed.isSome then s else logEvent vesperPage 2 [] s

/-- Stage VIMG. -/
def vimgStage (straps : Nat) (s : State) : State :=
  let r := checkImage s.vesper.slot 1 (modVesper (fun v => { v with smbAddr := 0x60 + straps }) s)
  if r.1 then enablePages [vesperPage] (toStage 3 r.2) else failSlot r.2

/-- Stage CFG: with no valid record the boot stops. -/
def cfgStage (s : State) : State :=
  match chooseRecord s with
  | some k => toStage 4 (loadRecord (modVesper (fun v => { v with cfgOk := true, cfgCopy := k }) s))
  | none => logEvent vesperPage 1 [] (modVesper (fun v => { v with booting := false, stopped := true }) s)

/-- Stage LOG. -/
def logStage (s : State) : State :=
  let s := readLogbook s
  toStage 5 (showCapacity (forAll applyEntry s.rel.logbook s))

/-- Stage IMG. -/
def imgStage (s : State) : State :=
  let r := checkImage s.vesper.slot 2 s
  let q := checkImage s.vesper.slot 3 r.2
  if r.1 && q.1 then toStage 6 q.2 else failSlot q.2

/-- Pages that Vesper enables in stage GNOMON: Gnomon's but the boundary page, and the function pages. -/
def gnomonPages : List Nat :=
  [0x002, 0x003, 0x004, 0x005, 0x006, 0x008, 0x009] ++
    ([0, 1] : List (Fin 2)).flatMap (fun p => allFuncs.map (funcPage p))

/-- A trim is recalibrated at every boot: by kind, the number modulo 8, HBM3 PHY, LP5X, Ickor receivers and PCI Express are, the
regulator and current-sense gains, thermal offsets and path-delay baselines keep their stored values (R452; DESIGN CHOICE, log
entry 107). -/
def recalibrates (k : Nat) : Bool := decide (k % 8 < 4)

/-- The value of a trim in use: recalibrated at this boot, or stored where its recalibration fell back or is never made. -/
def trimInUse (s : State) (k : Nat) : Nat :=
  if recalibrates k && !s.vesper.trimFell.contains k then Config.recalibratedTrim s.vesper.bootCount k
  else Config.storedTrim (trimArea s) k

/-- Recalibrations fail: each falls back to its stored value, with TRIMFALL. -/
def fallTrims (failedTrims : List Nat) (s : State) : State :=
  let fell := (failedTrims.filter recalibrates).foldl kins []
  logTimes fell.length vesperPage 3 [] (modVesper (fun v => { v with trimFell := fell }) s)

/-- Stage GNOMON: recalibrations that failed fall back, the module is in GNOMON, and a plan is recorded. -/
def gnomonStage (failedTrims : List Nat) (s : State) : State :=
  let s := fallTrims failedTrims s
  let s := modPower (fun p =>
    { p with modState := 2, planned := false, fmax := clockLimit s, planMin := 1440 - 60 * (p.hours % 24) }) s
  toStage 7 (recordPlan 1 [] false [] [] (enablePages gnomonPages s))

/-- Stage HOST. -/
def hostStage (s : State) : State :=
  let s := forAll (fun p => modHost p (fun h => { h with enabled := true })) [0, 1] s
  toStage 8 (forAll trainPort [0, 1] s)

/-- COMMIT and REVOKE of the bundle in the slot booted (R446). -/
def commitBundle (s : State) : State :=
  let k := s.vesper.slot
  let flags := [1, 2, 3].map (fun t => imageNat s k t 20 1)
  if flags.any (fun b => bitOf b 0) then
    let signers := [1, 2, 3].map (fun t => imageNat s k t 5 1)
    let named := (List.range 4).filter (fun i => flags.any (fun b => bitOf b (4 + i)) && !signers.contains i)
    modVesper (fun v =>
      { v with floor := max v.floor (min 64 (imageNat s k 1 8 4))
               revoked := named.foldl (fun r i => putBits r i i 1) v.revoked }) s
  else s

/-- READY: a trial slot is confirmed, and AUTOSTART starts Meridian. -/
def readyStage (s : State) : State :=
  let s := if s.vesper.trial then commitBundle (modBoot (fun v => { v with trialFlag := false }) s) else s
  let s := modVesper (fun v => { v with booting := false }) s
  if bitOf (recordNat s 65 1) 2 then startMeridian s else s

/-! ### Debug unlock (R458 to R460) -/

/-- DBGREJ with its cause (R468). -/
def logDbgrej (cause : Nat) (s : State) : State := logEvent vesperPage 5 [cause] s

/-- A new challenge: a nonce, the boot count and zeros, valid for 10 minutes. -/
def newChallenge (s : State) : State :=
  let v := s.vesper
  let c := (Config.nonce v.nonces).toNat + v.bootCount % 2 ^ 32 * 2 ^ 128
  modVesper (fun v =>
    { v with nonces := v.nonces + 1, challenge := some (BitVec.ofNat 256 c, s.now + msCycles 600000) }) s

/-- The bytes of the token written so far; a word not written is zero. -/
def tokenBytes (s : State) : List Byte :=
  (List.range 24).flatMap (fun k => bytesOfNat 4 (mget (0 : W32) s.vesper.token k).toNat)

/-- Why a token is rejected, 0 when it is accepted (R459). -/
def tokenCause (s : State) : Nat :=
  let v := s.vesper
  let b := tokenBytes s
  let auth := natOfBytes ((b.drop 21).take 1)
  let key := flashBytes s (recordAt v.cfgCopy + 148 + 64 * auth) 64
  let digest := bytesOfNat 32 (Config.sm3 (b.take 32 ++ flashBytes s (recordAt v.cfgCopy + 8) 16 ++
    flashBytes s (recordAt v.cfgCopy + 24) 32)).toNat
  if v.locked then 6
  else match challengeOf s with
    | none => 1
    | some (c, _) =>
      if b.take 20 ≠ bytesOfNat 20 c.toNat then 2
      else if !v.cfgOk ∨ 1 < auth ∨ key.all (· == 0) then 3
      else if 8 ≤ natOfBytes ((b.drop 20).take 1) ∨ natOfBytes ((b.drop 24).take 8) ≠ 0 then 4
      else if !Config.sm2Verify key digest (b.drop 32) then 5
      else 0

/-- A token is submitted: it opens its scopes for its lifetime, or is rejected; either way the challenge is spent. A
scope that was open takes the lifetime of the new token. (DEDUCED, log entry 65.) -/
def submitToken (s : State) : State :=
  let c := tokenCause s
  let b := tokenBytes s
  let s := modVesper (fun v => { v with challenge := none, token := [] }) s
  if c = 0 then
    let scopes := natOfBytes ((b.drop 20).take 1)
    let minutes := natOfBytes ((b.drop 22).take 2)
    let s := modVesper (fun v =>
      { v with scopes := Nat.lor v.scopes scopes, scopesSticky := Nat.lor v.scopesSticky scopes,
               scopeEnds := [0, 1, 2].foldl (fun m k =>
                 if !bitOf scopes k then m
                 else if minutes = 0 then mdel m k
                 else mset m k (s.now + msCycles (60000 * minutes))) v.scopeEnds
               eraseUsed := v.eraseUsed && !bitOf scopes 2 }) s
    logEvent vesperPage 4 [scopes] s
  else
    let s := modVesper (fun v =>
      { v with rejects := min 3 (v.rejects + 1), locked := v.locked || decide (2 ≤ v.rejects) }) s
    logDbgrej c s

/-- A word of the token is written; the last one submits it. -/
def writeToken (k v : Nat) (s : State) : State :=
  let s := modVesper (fun x => { x with token := mset x.token k (BitVec.ofNat 32 v) }) s
  if k = 23 then submitToken s else s

/-- The logbook is erased under LOGERASE, once; the standing withdrawals and retirements are then written again (R416, R460).
(DEDUCED, log entry 78.) -/
def eraseLogbook (r : Req) (s : State) : State :=
  if scopeOpen s 2 && !s.vesper.eraseUsed then
    let standing := (s.rel.logbook ++ s.rel.keptEntries).filter (fun e => e.kind == 3 || e.kind == 4)
    let s := eraseFlash 0x4100000 0x1000000 (modVesper (fun v => { v with eraseUsed := true }) s)
    showCapacity (modRel (fun x =>
      { x with logbook := [], nextSeq := 0, toWrite := x.toWrite ++ standing,
               keptEntries := x.keptEntries.filter (fun e => e.kind != 3 && e.kind != 4) }) s)
  else logFieldskip vesperPage 0x110 r 4 s

/-- A write of VSP_DBGREQ: its bits in order. -/
def writeDbgreq (r : Req) (v : Nat) (s : State) : State :=
  let s := if bitOf v 0 then newChallenge s else s
  let s := if bitOf v 1 then closeScopes s else s
  if bitOf v 2 then eraseLogbook r s else s

end Sys2Proof.Machine
end

