-- ==== Sys2Proof/Machine/Boot.lean ====
section
/-! DEFINITION. The commands of power good, the boot stages and debug unlock (R447 to R460, R512). -/
namespace Sys2Proof.Machine

/-- Vesper's rails are in regulation, MOD_EN being high and the input at 40.0 V or above: the boot begins. -/
def execPowerGood (s : State) : Host.Outcome State Fault Refusal :=
  .next (if s.power.modState = 0 ∧ s.power.modEn ∧ 40000 ≤ s.power.vin then
    modVesper (fun v => { v with booting := true, stage := 0, goodAt := s.now }) (modPower (fun p => { p with modState := 1 }) s)
  else s)

/-- Stage ROM. -/
def execStageRom (s : State) : Host.Outcome State Fault Refusal := .next (if inStage s 0 then romStage s else s)

/-- Stage PUF. -/
def execStagePuf (array : List Byte) (s : State) : Host.Outcome State Fault Refusal :=
  .next (if inStage s 1 then pufStage array s else s)

/-- Stage VIMG. -/
def execStageVimg (straps : BitVec 3) (s : State) : Host.Outcome State Fault Refusal :=
  .next (if inStage s 2 then vimgStage straps.toNat s else s)

/-- Stage CFG. -/
def execStageCfg (s : State) : Host.Outcome State Fault Refusal := .next (if inStage s 3 then cfgStage s else s)

/-- Stage LOG. -/
def execStageLog (s : State) : Host.Outcome State Fault Refusal := .next (if inStage s 4 then logStage s else s)

/-- Stage IMG. -/
def execStageImg (s : State) : Host.Outcome State Fault Refusal := .next (if inStage s 5 then imgStage s else s)

/-- Stage GNOMON. -/
def execStageGnomon (failedTrims : List Nat) (s : State) : Host.Outcome State Fault Refusal :=
  .next (if inStage s 6 then gnomonStage failedTrims s else s)

/-- Stage HOST. -/
def execStageHost (s : State) : Host.Outcome State Fault Refusal := .next (if inStage s 7 then hostStage s else s)

/-- Boot complete. -/
def execStageReady (s : State) : Host.Outcome State Fault Refusal := .next (if inStage s 8 then readyStage s else s)

/-- A trial slot has not reached READY 2,000 ms after power good, be the boot still in progress or stopped at CFG. -/
def execTrialTimeout (s : State) : Host.Outcome State Fault Refusal :=
  .next (if (s.vesper.booting || s.vesper.stopped) && s.vesper.trial then failSlot (advanceTo (s.vesper.goodAt + msCycles 2000) s) else s)

/-- VSP_DBGREQ REQ. -/
def execDbgReq (r : Req) (s : State) : Host.Outcome State Fault Refusal := .next (writeDbgreq r 1 s)

/-- VSP_DBGREQ LOCK. -/
def execDbgLock (r : Req) (s : State) : Host.Outcome State Fault Refusal := .next (writeDbgreq r 2 s)

/-- VSP_DBGREQ ERASE. -/
def execDbgErase (r : Req) (s : State) : Host.Outcome State Fault Refusal := .next (writeDbgreq r 4 s)

/-- The last word of the token. -/
def execTokenSubmit (_r : Req) (v : W32) (s : State) : Host.Outcome State Fault Refusal := .next (writeToken 23 v.toNat s)

/-- The challenge expires. -/
def execChallengeExpire (s : State) : Host.Outcome State Fault Refusal :=
  .next (match s.vesper.challenge with
    | none => s
    | some (_, t) => modVesper (fun v => { v with challenge := none }) (advanceTo t s))

/-- The lifetime that ends first ends. -/
def execScopeExpire (s : State) : Host.Outcome State Fault Refusal :=
  .next (match firstEnd s.vesper.scopeEnds with
    | none => s
    | some t => closeEnded t (advanceTo t s))

end Sys2Proof.Machine
end

