-- ==== Sys2Proof/Machine/VectorRows.lean ====
section
/-! DEFINITION. Row operations of the vector engine: the fixed tree (R143), reductions (R144), soft maxima (R145, R146),
normalisation (R147) and sampling (R154, R155), on FP32 codes. -/
namespace Sys2Proof.Machine

/-- FP32 codes used by the row operations. -/
def codeNan : Nat := 0x7FC00000
def codePinf : Nat := 0x7F800000
def codeNinf : Nat := 0xFF800000
def codeLn2 : Nat := 0x3F317218

/-- The FP32 code of a whole number that FP32 holds exactly, and of n × 2^−24. -/
def natCode (n : Nat) : Nat := fenc 23 (.fin false n 0)
def unitCode (n : Nat) : Nat := fenc 23 (.fin false n (-24))

/-- A NaN code, and a finite one. -/
def isNanCode (x : Nat) : Bool := (fdec 23 x).isNan
def isFinCode (x : Nat) : Bool := (fdec 23 x).isFin

/-- One level of the tree: neighbours combined, an absent one giving way to the other (R143). -/
def halve (op : Nat → Nat → Nat) : List (Option Nat) → List (Option Nat)
  | [] => []
  | [a] => [a]
  | a :: b :: t =>
    (match a, b with
      | none, y => y
      | some x, none => some x
      | some x, some y => some (op x y)) :: halve op t

/-- The fixed tree over at most 2^levels positions (R143). -/
def treeReduce (op : Nat → Nat → Nat) : Nat → List (Option Nat) → Option Nat
  | 0, l => l.head?.join
  | n + 1, l =>
    match l with
    | [] => none
    | [x] => x
    | _ :: _ :: _ => treeReduce op n (halve op l)

/-- The reduction of a row of at most 65,536 positions. -/
def reduceRow (op : Nat → Nat → Nat) (l : List (Option Nat)) : Option Nat := treeReduce op 16 l

/-- A row as its operation sees it: its number, each position's value with whether it is included (R142). -/
structure RowIn where
  rho : Nat
  xs : List (Nat × Bool)
  deriving DecidableEq, Repr

/-- What a row gives: its values, and the event it logs: 3 EMPTYROW, 4 NANROW, 0 none (R157). -/
structure RowOut where
  ys : List Nat
  ev : Nat
  deriving DecidableEq, Repr

/-- The included values of a row, the rest absent. -/
def RowIn.included (r : RowIn) : List (Option Nat) := r.xs.map (fun p => if p.2 then some p.1 else none)

/-- Something is included; an included NaN; an included value that is not finite. -/
def RowIn.some (r : RowIn) : Bool := r.xs.any (fun p => p.2)
def RowIn.hasNan (r : RowIn) : Bool := r.xs.any (fun p => p.2 && isNanCode p.1)
def RowIn.nonfinite (r : RowIn) : Bool := r.xs.any (fun p => p.2 && !isFinCode p.1)

/-! ### Reductions (R144) -/

/-- RSUM, RMAX and RMIN: the tree over an operation, and what an empty row gives; a row with a NaN gives the one NaN code
(R36, R144). -/
def rowReduce (op : Nat → Nat → Nat) (empty : Nat) (r : RowIn) : RowOut :=
  match reduceRow op r.included with
  | none => { ys := [empty], ev := 3 }
  | some x => if r.hasNan then { ys := [codeNan], ev := 4 } else { ys := [x], ev := 0 }

/-- RARGMAX: the largest value and the lowest position at which it occurs; with a NaN, the lowest NaN position. -/
def rowArgmax (r : RowIn) : RowOut :=
  match reduceRow (fminmax true 23) r.included with
  | none => { ys := [codeNinf, 0xFFFFFFFF], ev := 3 }
  | some m =>
    let at_ := fun (p : Nat × Bool) => p.2 && (if r.hasNan then isNanCode p.1 else p.1 == m)
    { ys := [if r.hasNan then codeNan else m, (r.xs.findIdx? at_).getD 0], ev := if r.hasNan then 4 else 0 }

/-! ### The soft maximum (R145, R146) -/

/-- A NaN row: NaN below n, the excluded value beyond (R142). -/
def nanRow (n fill : Nat) (r : RowIn) : RowOut :=
  { ys := (List.range r.xs.length).map (fun p => if p < n then codeNan else fill), ev := 4 }

/-- Positions of f: included and not −∞. -/
def inF (p : Nat × Bool) : Bool := p.2 && p.1 != codeNinf

/-- The screen of R145, shared: fill at positions outside f, top k at +∞ positions of k of them, and the ordinary row. -/
def softRow (n fill : Nat) (top : Nat → Nat) (ordinary : RowIn → List Nat) (r : RowIn) : RowOut :=
  let k := r.xs.countP (fun p => inF p && p.1 == codePinf)
  if r.hasNan then nanRow n fill r
  else if !r.xs.any inF then { ys := r.xs.map (fun _ => fill), ev := 3 }
  else if 0 < k then { ys := r.xs.map (fun p => if inF p && p.1 == codePinf then top k else fill), ev := 0 }
  else { ys := ordinary r, ev := 0 }

/-- mul(sub(x, m), β) at the positions of f, m the largest of them. -/
def softScaled (beta : Nat) (r : RowIn) : List (Option Nat) :=
  let f := r.xs.map (fun p => if inF p then some p.1 else none)
  let m := (reduceRow (fminmax true 23) f).getD 0
  f.map (fun o => o.map (fun x => fmul 23 (fsub 23 x m) beta))

/-- SOFTMAX of an ordinary row. -/
def softOrdinary (beta : Nat) (r : RowIn) : List Nat :=
  let e := (softScaled beta r).map (fun o => o.map (fexp2 23))
  let s := (reduceRow (fadd 23) e).getD 0
  let q := frcp 23 s
  e.map (fun o => match o with
    | some x => fmul 23 x q
    | none => 0)

/-- LOGSOFTMAX of an ordinary row. -/
def logOrdinary (beta : Nat) (r : RowIn) : List Nat :=
  let d := softScaled beta r
  let s := (reduceRow (fadd 23) (d.map (fun o => o.map (fexp2 23)))).getD 0
  let l := flog2 23 s
  d.map (fun o => match o with
    | some x => fmul 23 (fsub 23 x l) codeLn2
    | none => codeNinf)

/-- SOFTMAX (R145). -/
def rowSoftmax (n beta : Nat) (r : RowIn) : RowOut :=
  softRow n 0 (fun k => frcp 23 (natCode k)) (softOrdinary beta) r

/-- LOGSOFTMAX (R146). -/
def rowLogsoftmax (n beta : Nat) (r : RowIn) : RowOut :=
  softRow n codeNinf (fun k => fmul 23 (fneg 23 (flog2 23 (natCode k))) codeLn2) (logOrdinary beta) r

/-! ### Normalisation (R147) -/

/-- d[i] at the included positions: x less the mean for LAYERNORM, x for RMSNORM. -/
def normCentred (layer : Bool) (nu : Nat) (r : RowIn) : List (Option Nat) :=
  if layer then
    let mu := fdiv 23 ((reduceRow (fadd 23) r.included).getD 0) nu
    r.included.map (fun o => o.map (fun x => fsub 23 x mu))
  else r.included

/-- An ordinary row: gam and bet by position, none for no affine step. -/
def normOrdinary (layer : Bool) (eps : Nat) (affine : Option (List Nat × List Nat)) (r : RowIn) : List Nat :=
  let nu := natCode (r.xs.countP (fun p => p.2))
  let d := normCentred layer nu r
  let v := fdiv 23 ((reduceRow (fadd 23) (d.map (fun o => o.map (fun x => fmul 23 x x)))).getD 0) nu
  let u := fadd 23 v eps
  let q := if u = 0 then 0 else frsqrt 23 u
  let fin := fun (o : Option Nat) (gb : Nat × Nat) => match o with
    | none => 0
    | some x =>
      let t := fmul 23 x q
      if affine.isNone then t else if layer then ffma 23 t gb.1 gb.2 else fmul 23 t gb.1
  let g := match affine with
    | some p => p
    | none => ([], [])
  (List.range d.length).zipWith (fun p o => fin o (g.1.getD p 0, g.2.getD p 0)) d

/-- LAYERNORM and RMSNORM. -/
def rowNorm (layer : Bool) (n eps : Nat) (affine : Option (List Nat × List Nat)) (r : RowIn) : RowOut :=
  if r.nonfinite then nanRow n 0 r
  else if !r.some then { ys := r.xs.map (fun _ => 0), ev := 3 }
  else { ys := normOrdinary layer eps affine r, ev := 0 }

/-! ### Sampling (R154, R155) -/

/-- The Gumbel value of a vocabulary index. -/
def gumbel (seed t v : W64) : Nat :=
  let h := fold (seed ^^^ fold (t ^^^ fold v))
  fneg 23 (flog2 23 (fneg 23 (flog2 23 (unitCode ((h >>> 41).toNat * 2 + 1)))))

/-- The lowest position of the largest key, −0 below +0. -/
def bestKey : List (Nat × Nat) → Option (Nat × Nat)
  | [] => none
  | (p, x) :: t =>
    match bestKey t with
    | none => some (p, x)
    | some (q, y) => if vlt (fdec 23 x) (fdec 23 y) then some (q, y) else some (p, x)

/-- The positions that compete, with their keys: all the included, or the +∞ ones alone. -/
def sampleKeys (greedy : Bool) (beta base : Nat) (seed t : W64) (r : RowIn) : List (Nat × Nat) :=
  let inf := r.xs.any (fun p => p.2 && p.1 == codePinf)
  let g := fun i => gumbel seed t (BitVec.ofNat 64 (base + i))
  (List.range r.xs.length).zipWith (fun i p => (i, p)) r.xs |>.filterMap fun q =>
    let i := q.1
    let x := q.2.1
    if !q.2.2 || (inf && x != codePinf) then none
    else some (i, if greedy then x else if inf then g i else ffma 23 x beta (g i))

/-- SAMPLE: the index and the winning value. -/
def rowSample (greedy : Bool) (beta base : Nat) (seed t : W64) (r : RowIn) : RowOut :=
  if r.hasNan then { ys := [0xFFFFFFFF, codeNan], ev := 4 }
  else if !r.xs.any inF then { ys := [0xFFFFFFFF, codeNinf], ev := 3 }
  else
    match bestKey (sampleKeys greedy beta base seed t r) with
    | none => { ys := [0xFFFFFFFF, codeNinf], ev := 3 }
    | some (p, z) =>
      let inf := r.xs.any (fun p => p.2 && p.1 == codePinf)
      { ys := [(base + p) % 2 ^ 32, if inf then codePinf else z], ev := 0 }

/-! ### A row command -/

/-- The rows of a command (R141, R142). -/
def rowsOf (k : Core) (f : VCmd) : List RowIn :=
  let src := vregs k f.va f.c
  let msk := if f.msk then vregs k f.vc 1 else []
  let l := rowLen f
  let pos := (List.range src.length).zipWith
    (fun q x => (x, decide (q % l < f.n) && !bitOf (msk.getD (q % 2048) 0) (q / 2048))) src
  (List.range (rowCount f)).map (fun rho => { rho := rho, xs := (pos.drop (rho * l)).take l })

/-- The events of the rows (R157), in rising order of rows, which no rule states (DESIGN CHOICE, log entry 96). -/
def rowEvents (c : CoreId) (e : QEntry) : Nat → List RowOut → State → State
  | _, [], s => s
  | rho, o :: t, s =>
    rowEvents c e (rho + 1) t (if o.ev = 0 then s else logEvent (coreP c 5) o.ev [e.idx + rho * 2 ^ 8] s)

/-- One value per row in the lanes of a register, the other lanes +0 (R144). -/
def laneReg (outs : List RowOut) (j : Nat) : List Nat :=
  (List.range 2048).map (fun l => match outs[l]? with
    | some o => o.ys.getD j 0
    | none => 0)

/-- A row command whose rows each give values for lanes of dests registers, or with dests 0 a value per position. -/
def rowCmd (c : CoreId) (dests : Nat) (h : Core → VCmd → RowIn → RowOut) (f : VCmd) (e : QEntry) (s : State) : State :=
  let k := s.core c
  let outs := (rowsOf k f).map (h k f)
  let ws := if dests = 0 then outs.flatMap (·.ys) else (List.range dests).flatMap (laneReg outs)
  let s := modCore c (setVregs f.vd ws) s
  let s := bumpPair (coreP c 5) 0x118 outs.length s
  beginVec c e none (rowEvents c e 0 outs s)

/-- γ and β of a row of a normalisation (R147). -/
def affineOf (k : Core) (f : VCmd) (r : RowIn) : Option (List Nat × List Nat) :=
  if f.flag then
    let cut := fun (v : Nat) => ((vregs k v f.c).drop (r.rho * rowLen f)).take (rowLen f)
    some (cut f.vb, if f.op = 0x62 then cut (f.vb + f.c) else [])
  else none

/-- The seed, position and base of a row of a SAMPLE (R154). -/
def sampleRow (k : Core) (f : VCmd) (r : RowIn) : RowOut :=
  let vs := vregs k f.vb 1
  let seed := BitVec.ofNat 64 (vs.getD (2 * r.rho) 0 + 2 ^ 32 * vs.getD (2 * r.rho + 1) 0)
  let t := BitVec.ofNat 64 ((vregs k (f.vb + 1) 1).getD r.rho 0)
  rowSample f.flag f.scalar ((vregs k (f.vb + 2) 1).getD 0 0) seed t r

end Sys2Proof.Machine
end

