-- ==== Sys2Proof/Machine/UpdateOps.lean ====
section
/-! DEFINITION. The Gnomon update engine (R280 to R300): layer entries, the checks of a start, the update rules, stochastic
rounding, the copies, and a layer's place in the engine's queue. An update's reads and writes are made when it begins
(DEDUCED, log entry 25). -/
namespace Sys2Proof.Machine

/-- The update page. -/
def updPage : Nat := 0x006

/-- A layer entry (R280, R302). -/
structure LEntry where
  rule : Nat
  frz : Bool
  k : Nat
  n : Nat
  bases : List Nat
  eta : Nat
  lambda : Nat
  beta1 : Nat
  beta2 : Nat
  tclip : Nat
  seed : W64
  s0 : Nat
  deriving DecidableEq, Repr

/-- A layer's registers. -/
def lyrWord (s : State) (n off : Nat) : Nat := rawWord s (entryBank n) updPage off
def lyrPair (s : State) (n off : Nat) : Nat := rawPair s (entryBank n) updPage off

/-- A layer's entry. -/
def lentry (s : State) (n : Nat) : LEntry :=
  let w := lyrWord s n
  { rule := bitsOf (w 0x104) 2 0, frz := bitOf (w 0x104) 3, k := w 0x108, n := bitsOf (w 0x10C) 16 0,
    bases := (List.range 11).map (fun i => 1024 * w (0x110 + 4 * i)), eta := w 0x13C, lambda := w 0x140, beta1 := w 0x144,
    beta2 := w 0x148, tclip := w 0x14C, seed := BitVec.ofNat 64 (lyrPair s n 0x150), s0 := lyrPair s n 0x158 }

/-- N and K rounded up to a multiple of 32. -/
def LEntry.np (e : LEntry) : Nat := (e.n + 31) / 32 * 32
def LEntry.kp (e : LEntry) : Nat := (e.k + 31) / 32 * 32

/-- The bases: masters, moments and their exponents, gradients, W_R and its exponents, W_T and its exponents, stamps, the
touched-row map, the freeze map. -/
def LEntry.base (e : LEntry) (i : Nat) : Nat := e.bases.getD i 0
def LEntry.masterAt (e : LEntry) (k n : Nat) : Nat := e.base 0 + 2 * (k * e.np + n)
def LEntry.momentAt (e : LEntry) (k b : Nat) : Nat := e.base 1 + k * e.np + 32 * b
def LEntry.momentExp (e : LEntry) (k b : Nat) : Nat := e.base 2 + k * (e.np / 32) + b
def LEntry.gradAt (e : LEntry) (k n : Nat) : Nat := e.base 3 + 2 * (k * e.np + n)
def LEntry.wrAt (e : LEntry) (n j : Nat) : Nat := e.base 4 + n * e.kp + 32 * j
def LEntry.wrExp (e : LEntry) (n j : Nat) : Nat := e.base 5 + n * (e.kp / 32) + j
def LEntry.wtAt (e : LEntry) (k b : Nat) : Nat := e.base 6 + k * e.np + 32 * b
def LEntry.wtExp (e : LEntry) (k b : Nat) : Nat := e.base 7 + k * (e.np / 32) + b
def LEntry.stampAt (e : LEntry) (k : Nat) : Nat := e.base 8 + 8 * k

/-- The tensors of R280 as starts and lengths: masters, both copies; moments, gradients and what the rule adds. -/
def LEntry.copyExtents (e : LEntry) : List (Nat × Nat) :=
  [(e.base 0, 2 * ((e.k - 1) * e.np + e.n)), (e.base 4, e.n * e.kp), (e.base 5, e.n * e.kp / 32), (e.base 6, e.k * e.np),
   (e.base 7, e.k * e.np / 32)]
def LEntry.extents (e : LEntry) : List (Nat × Nat) :=
  e.copyExtents ++
  [(e.base 1, e.k * e.np), (e.base 2, e.k * e.np / 32), (e.base 3, 2 * ((e.k - 1) * e.np + e.n))] ++
  (if e.rule = 4 then [(e.base 8, 8 * e.k), (e.base 9, (e.k + 7) / 8)] else []) ++
  (if e.frz then [(e.base 10, (e.k + 7) / 8)] else [])
/-- What the check of R287 covers: under rules B and C the freeze map without regard to FRZ. -/
def LEntry.checked (e : LEntry) (copy : Bool) : List (Nat × Nat) :=
  if copy then e.copyExtents
  else e.extents ++ (if e.rule = 2 ∨ e.rule = 3 then [(e.base 10, (e.k + 7) / 8)] else [])

/-! ### The checks of a start (R287) -/

/-- η or λ is negative or not finite; a β lies outside [0, 1); TCLIP is NaN or not above zero. -/
def badRate (w : Nat) : Bool := let x := fdec 23 w; !x.isFin || (x.neg && !x.isZero)
def badBeta (w : Nat) : Bool := badRate w || !vlt (fdec 23 w) (.fin false 1 0)
def badClip (w : Nat) : Bool := let x := fdec 23 w; x.isNan || x.neg || x.isZero

/-- The cause of a rejection, 0 for none. A COPY reaches the masters and the copies. -/
def rejectLayer (e : LEntry) (copy : Bool) : Nat :=
  if 4 < e.rule then 1
  else if e.k = 0 ∨ e.n = 0 ∨ 65536 < e.n then 2
  else if (e.checked copy).any (fun x => decide (0x30000000000 < x.1 + x.2)) then 3
  else if badRate e.eta || badRate e.lambda || badBeta e.beta1 || badBeta e.beta2 || badClip e.tclip then 4
  else 0

/-! ### The rules (R289 to R292) -/

/-- 1.0 in FP32. -/
def one32 : Nat := 0x3F800000

/-- pow (R289), the bits of the exponent taken from the lowest. -/
def pow32 : Nat → Nat → Nat → Nat → Nat
  | 0, _, _, r => r
  | fuel + 1, x, n, r => if n = 0 then r else pow32 fuel (fmul 23 x x) (n / 2) (if n % 2 = 1 then fmul 23 r x else r)
def powOf (x n : Nat) : Nat := pow32 64 x n one32

/-- The constants of an update: c1, c2, f, and for rule D the bias correction. -/
structure UConst where
  c1 : Nat
  c2 : Nat
  f : Nat
  b : Nat
  deriving DecidableEq, Repr

/-- The constants formed once at the start. -/
def constsOf (e : LEntry) (t : Nat) : UConst :=
  { c1 := fsub 23 one32 e.beta1, c2 := fsub 23 one32 e.beta2, f := fsub 23 one32 (fmul 23 e.eta e.lambda),
    b := if t ≤ e.s0 + 1 then 0 else fsub 23 one32 (powOf e.beta2 (t - 1 - e.s0)) }

/-- A sign as an FP32 code. -/
def signCode (g : Int) : Nat := if 0 < g then one32 else if g < 0 then one32 + 2 ^ 31 else 0

/-- The sign of q (R290): 0 for either zero. -/
def signOf (q : Nat) : Int :=
  let x := fdec 23 q
  if x.isZero then 0
  else if vlt (.fin false 0 0) x then 1 else if vlt x (.fin false 0 0) then -1 else 0

/-- The moment after row decay, u, and the new moment of one element (R290). -/
def momentStep (e : LEntry) (c : UConst) (dec : Nat) (m : Nat) (g : Int) : Int × Nat :=
  let sg := signCode g
  let m := if e.rule = 4 then fmul 23 m dec else m
  let mh := if e.rule = 4 then (if c.b = 0 then 0 else fdiv 23 m c.b) else m
  let q := ffma 23 e.beta1 mh (fmul 23 c.c1 sg)
  (signOf q, ffma 23 e.beta2 m (fmul 23 c.c2 sg))

/-- A sign as an exact value times an exact one; zero times infinity is no number, and so takes the free value of log entry 26. -/
def scaleVal (u : Int) (x : FVal) : FVal :=
  if u < 0 then x.flip
  else if 0 < u then x
  else match x with
    | .fin _ _ _ => .fin false 0 0
    | .inf _ => .nan
    | .nan => .nan

/-- x = w × f − p × u, exact (R290). -/
def masterExact (w f p : FVal) (u : Int) : FVal := vadd (vmul w f) (scaleVal u p).flip

/-! ### Stochastic rounding (R296, R297) -/

/-- The magnitude of a bf16 code, and of the code above it; 0x7F80 reads as 2^128. -/
def bfMag (code : Nat) : Dyad := if code = 0x7F80 then ⟨1, 128⟩ else (fdec 7 code).dyad

/-- The bf16 code at or below a magnitude, by the position of its leading bit. -/
def bfBelow (m : Nat) (e : Int) : Nat :=
  if m = 0 then 0
  else
    let top := (Nat.log2 m : Int) + e
    if top < -126 then (shiftInt m (e + 133)).toNat
    else if 127 < top then 0x7F80
    else ((top + 127).toNat) * 128 + ((shiftInt m (e - (top - 7))).toNat - 128)

/-- sr of a finite value with the 24-bit draw v: the code, and whether it saturated (R295). -/
def srCode (neg : Bool) (m : Nat) (e : Int) (v : Nat) : Nat × Bool :=
  if m = 0 then (0, false)
  else
    let lo := bfBelow m e
    if 0x7F7F ≤ lo ∧ (bfMag 0x7F7F).lt ⟨m, e⟩ then (withSign 7 neg 0x7F7F, true)
    else
      let x : Dyad := ⟨m, e⟩
      let a := bfMag lo
      let d := x.add ⟨-a.m, a.e⟩
      let gap := (bfMag (lo + 1)).add ⟨-a.m, a.e⟩
      let up : Bool := d.m != 0 && (if neg then
          -- a negative x has its upper neighbour nearer zero, chosen when v × 2^-24 is below 1 − d ÷ gap
          !(Dyad.mul ⟨v, -24⟩ gap).lt (gap.add ⟨-d.m, d.e⟩)
        else (Dyad.mul ⟨v, -24⟩ gap).lt d)
      let code := if up then lo + 1 else lo
      (if code = 0 then 0 else withSign 7 neg code, false)

/-- The draw of element (k, n): bits [63:40] (R297). -/
def drawOf (e : LEntry) (t k n : Nat) : Nat :=
  let i := k * e.n + n
  let key := fold (e.seed ^^^ fold (BitVec.ofNat 64 t ^^^ fold (BitVec.ofNat 64 (i % 256))))
  (drawAt key (i / 256)).toNat / 2 ^ 40

/-! ### Reading a layer -/

/-- Bit k of a row map. -/
def rowBit (s : State) (base k : Nat) : Bool := (memGet s.mem (base + k / 8)).getLsbD (k % 8)

/-- A row is frozen (R293); a row is updated (R292). -/
def frozenRow (s : State) (e : LEntry) (k : Nat) : Bool := e.frz && rowBit s (e.base 10) k
def activeRow (s : State) (e : LEntry) (k : Nat) : Bool := !frozenRow s e k && (e.rule != 4 || rowBit s (e.base 9) k)

/-- A master's code, a moment widened to FP32 (R43), and a gradient. -/
def masterCode (s : State) (e : LEntry) (k n : Nat) : Nat := loadN s (e.masterAt k n) 2
def momentVal (s : State) (e : LEntry) (k n : Nat) : FVal :=
  elemVal 8 (mantAt s 8 (e.momentAt k (n / 32)) (n % 32)) (memGet s.mem (e.momentExp k (n / 32))).toNat
def gradVal (s : State) (e : LEntry) (k n : Nat) : Int := signedOf 16 (loadN s (e.gradAt k n) 2)

/-- The row decay of rule D (R292), 1.0 otherwise. -/
def decayOf (s : State) (e : LEntry) (t k : Nat) : Nat :=
  if e.rule = 4 then
    let tau := loadN s (e.stampAt k) 8
    powOf e.beta2 (if tau < t then t - tau - 1 else 0)
  else one32

/-- The poisoned lines that a block of a row rests on (R415), as addresses: of its gradients, moments and masters, which R415
names. The bytes of a poisoned row stamp, touched-row map or freeze map are used as they stand, with no event (DESIGN CHOICE,
log entry 110). -/
def blockPoison (s : State) (e : LEntry) (k b : Nat) : Option Nat :=
  firstPoison s [(e.gradAt k (32 * b), 1), (e.momentAt k b, 1), (e.momentExp k b, 1), (e.masterAt k (32 * b), 1)]

/-! ### The first pass of rules B and C (R291) -/

/-- The row sum S_k. Poisoned masters, and in nz poisoned moments and gradients, count as the bytes they hold (DESIGN CHOICE, log entry
111). -/
def rowSum (s : State) (e : LEntry) (k : Nat) : Nat :=
  let sq := (List.range e.n).map (fun n => let w := fenc 23 (fdec 7 (masterCode s e k n)); some (fmul 23 w w))
  (treeReduce (fadd 23) 64 sq).getD 0

/-- nz_k of a row that is not frozen. -/
def rowCountNz (s : State) (e : LEntry) (c : UConst) (k : Nat) : Nat :=
  if frozenRow s e k then 0
  else (List.range e.n).countP (fun n => (momentStep e c one32 (fenc 23 (momentVal s e k n)) (gradVal s e k n)).1 != 0)

/-- The trust ratio of a sum and a count, and whether a sum that is not finite made it 1.0. -/
def trustOf (e : LEntry) (sum nz : Nat) : Nat × Bool :=
  let x := fdec 23 sum
  if !x.isFin then (one32, true)
  else if nz = 0 ∨ x.isZero then (one32, false)
  else (fminmax false 23 (fsqrt 23 (fdiv 23 sum (fenc 23 (.fin false nz 0)))) e.tclip, false)

/-- ρ of every row, and whether UNONFIN is due. -/
def trustRows (s : State) (e : LEntry) (c : UConst) : List Nat × Bool :=
  let rows := List.range e.k
  if e.rule = 2 then
    let sums := rows.map (fun k => some (rowSum s e k))
    let r := trustOf e ((treeReduce (fadd 23) 64 sums).getD 0) ((rows.map (rowCountNz s e c)).foldl (· + ·) 0)
    (List.replicate e.k r.1, r.2)
  else if e.rule = 3 then
    let rs := rows.map (fun k => trustOf e (rowSum s e k) (rowCountNz s e c k))
    (rs.map (·.1), rs.any (·.2))
  else (List.replicate e.k one32, false)

/-! ### The copies (R298) -/

/-- SAT and INFLOSS of a block that the engine writes (R46, R303). -/
def logCopy (layer flag a : Nat) (elem : Option Nat) (s : State) : State :=
  match elem with
  | none => s
  | some i => logEvent updPage flag [layer, a % 2 ^ 32, a / 2 ^ 32 % 2 ^ 12, i] s

/-- A copy block: its bytes and exponent, and whether a master that it is built from was poisoned (R415). -/
structure CopyBlock where
  blk : Block
  bad : Bool
  deriving DecidableEq, Repr

/-- The block of 32 masters, given as positions and none for padding. -/
def copyBlock (s : State) (e : LEntry) (spots : List (Option (Nat × Nat))) : CopyBlock :=
  { blk := toBlock 8 true none (spots.map (fun q => match q with
      | some (k, n) => fdec 7 (masterCode s e k n)
      | none => .fin false 0 0))
    bad := spots.any (fun q => match q with
      | some (k, n) => poisoned s (e.masterAt k n) 2
      | none => false) }

/-- The events of a copy block with its exponent byte at ea. -/
def logBlockOf (layer ea : Nat) (x : CopyBlock) (s : State) : State :=
  logCopy layer 7 ea x.blk.infloss (logCopy layer 6 ea x.blk.sat s)

/-- The W_T line of a row: its mantissas are one write, and so are its exponents. -/
def writeWt (layer : Nat) (e : LEntry) (k : Nat) (s : State) : State :=
  let bs := (List.range (e.np / 32)).map fun b =>
    copyBlock s e ((List.range 32).map (fun i => if 32 * b + i < e.n then some (k, 32 * b + i) else none))
  let s := gnomonPieces (e.wtAt k 0) (bs.map (fun x => (x.bad, packMants 8 x.blk.ms))) whoGnomon s
  let s := gnomonPieces (e.wtExp k 0) (bs.map (fun x => (x.bad, [BitVec.ofNat 8 x.blk.e]))) whoGnomon s
  forAll (fun (x : CopyBlock × Nat) s => logBlockOf layer (e.wtExp k x.2) x.1 s) bs.zipIdx s

/-- The W_R blocks of a band of 32 rows, one per column. -/
def writeWr (layer : Nat) (e : LEntry) (j : Nat) (s : State) : State :=
  forAll (fun n s =>
    let x := copyBlock s e ((List.range 32).map (fun i => if 32 * j + i < e.k then some (32 * j + i, n) else none))
    let s := gnomonWrite x.bad (e.wrAt n j) (packMants 8 x.blk.ms) whoGnomon s
    logBlockOf layer (e.wrExp n j) x (gnomonWrite x.bad (e.wrExp n j) [BitVec.ofNat 8 x.blk.e] whoGnomon s)) (List.range e.n) s

/-- The rows of a band that the layer has. -/
def LEntry.band (e : LEntry) (j : Nat) : List Nat :=
  (List.range 32).filterMap (fun i => if 32 * j + i < e.k then some (32 * j + i) else none)

/-- The copies of a band, after its masters: the W_T lines of the given rows, and the band's W_R blocks if there are any. -/
def copyBand (layer : Nat) (e : LEntry) (j : Nat) (rows : List Nat) (s : State) : State :=
  if rows = [] then s else writeWr layer e j (forAll (writeWt layer e) rows s)

/-! ### The second pass -/

/-- What an update finds: elements updated, a saturated master, a value that is not finite, the first poisoned address. -/
structure UFlags where
  count : Nat
  ovf : Bool
  nonfin : Bool
  poison : Option Nat
  deriving DecidableEq, Repr

/-- A bf16 code as the module writes it: every NaN is 0x7FC0 (R36). -/
def bfWritten (code : Nat) : Nat := if (fdec 7 code).isNan then 0x7FC0 else code

/-- One element: new master code, new moment, updated, saturated. An x that is not a number has no stated rounding: a free
function of its operands, a NaN of it as R36 writes one (DESIGN CHOICE, log entry 26). -/
def updateElem (s : State) (e : LEntry) (c : UConst) (t p dec k n : Nat) : Nat × FVal × Bool × Bool :=
  let code := masterCode s e k n
  let w := fdec 7 code
  let m := momentVal s e k n
  if !w.isFin || !m.isFin then (code, m, false, false)
  else
    let st := momentStep e c dec (fenc 23 m) (gradVal s e k n)
    let mn := fdec 23 st.2
    match masterExact w (fdec 23 c.f) (fdec 23 p) st.1 with
    | .nan => (bfWritten (Config.unroundedMaster code c.f p st.1).toNat, mn, true, false)
    | .inf neg => (withSign 7 neg 0x7F7F, mn, true, true)
    | .fin neg mm ee =>
      let r := srCode neg mm ee (drawOf e t k n)
      (r.1, mn, true, r.2)

/-- UNONFIN and UOVF, each at the first element of the update that raises it (R291, R295). -/
def logElem (layer : Nat) (r : Nat × FVal × Bool × Bool) (x : UFlags × State) : UFlags × State :=
  let f := x.1
  if !r.2.2.1 && !f.nonfin then ({ f with nonfin := true }, logEvent updPage 4 [layer] x.2)
  else if r.2.2.2 && !f.ovf then ({ f with ovf := true }, logEvent updPage 3 [layer] x.2)
  else x

/-- One block of a row: its masters and its moments written, unless poison covers it. -/
def updateBlock (layer : Nat) (src : State) (e : LEntry) (c : UConst) (t p dec k b : Nat) (x : UFlags × State) : UFlags × State :=
  match blockPoison src e k b with
  | some a => ({ x.1 with poison := x.1.poison.or (some a) }, x.2)
  | none =>
    let cols := (List.range 32).map (32 * b + ·)
    let rs := (cols.filter (· < e.n)).map (updateElem src e c t p dec k)
    let blk := toBlock 8 true none (rs.map (·.2.1) ++ List.replicate (32 - rs.length) (.fin false 0 0))
    let x := rs.foldl (fun x r => logElem layer r x) x
    let s := gnomonWrite false (e.masterAt k (32 * b)) (rs.flatMap (fun r => bytesOfNat 2 r.1)) whoGnomon x.2
    let s := gnomonWrite false (e.momentAt k b) (packMants 8 blk.ms) whoGnomon s
    let s := gnomonWrite false (e.momentExp k b) [BitVec.ofNat 8 blk.e] whoGnomon s
    ({ x.1 with count := x.1.count + rs.countP (fun r => r.2.2.1) }, logCopy layer 7 (e.momentExp k b) blk.infloss s)

/-- The reads of an update as Gnomon-side accesses (R281). -/
def readExtents (xs : List (Nat × Nat)) (s : State) : State := forAll (fun (x : Nat × Nat) s => gnomonRead x.1 x.2 whoGnomon s) xs s

/-- What the update of a row reads: its master, moment and gradient, and under rule D its stamp (R292). -/
def LEntry.rowReads (e : LEntry) (k : Nat) : List (Nat × Nat) :=
  [(e.momentAt k 0, e.np), (e.momentExp k 0, e.np / 32), (e.gradAt k 0, 2 * e.n)] ++ (if e.rule = 4 then [(e.stampAt k, 8)] else [])
def LEntry.masterRead (e : LEntry) (k : Nat) : Nat × Nat := (e.masterAt k 0, 2 * e.n)

/-- The first poisoned master of rows that are read only for the copies (R415). -/
def mastersPoison (s : State) (e : LEntry) (rows : List Nat) : Option Nat := firstPoison s (rows.map e.masterRead)

/-- One row, and under rule D its stamp. -/
def updateRow (layer : Nat) (src : State) (e : LEntry) (c : UConst) (t : Nat) (rhos : List Nat) (k : Nat)
    (x : UFlags × State) : UFlags × State :=
  if activeRow src e k then
    let x := (x.1, readExtents (e.rowReads k) x.2)
    let p := fmul 23 e.eta (rhos.getD k one32)
    let dec := decayOf src e t k
    let x := (List.range (e.np / 32)).foldl (fun x b => updateBlock layer src e c t p dec k b x) x
    if e.rule = 4 then (x.1, gnomonWrite false (e.stampAt k) (bytesOfNat 8 t) whoGnomon x.2) else x
  else x

/-- One band of 32 rows: its masters, then its copies. Under rule D a band with no updated row is not read, nor is any other
part of it than its masters when it has one (R292, R298). -/
def updateBand (layer : Nat) (src : State) (e : LEntry) (c : UConst) (t : Nat) (rhos : List Nat) (j : Nat)
    (x : UFlags × State) : UFlags × State :=
  let active := (e.band j).filter (activeRow src e)
  let touched := if e.rule = 4 then (if active = [] then [] else e.band j) else e.band j
  let x := (x.1, readExtents (touched.map e.masterRead) x.2)
  let x := (e.band j).foldl (fun x k => updateRow layer src e c t rhos k x) x
  let bad := mastersPoison src e (touched.filter (fun k => !activeRow src e k))
  ({ x.1 with poison := x.1.poison.or bad }, copyBand layer e j (if e.rule = 4 then active else e.band j) x.2)

/-! ### An update (R287 to R298) -/

/-- POISONUSE of the engine, once for an update or COPY (R415). -/
def logUsed (p : Option Nat) (s : State) : State :=
  match p with
  | some a => logEvent relPage 5 [whoGnomon, a % 2 ^ 32, a / 2 ^ 32 % 2 ^ 12] s
  | none => s

/-- The maps that an update reads first: the freeze map, and under rule D the touched-row map. -/
def LEntry.maps (e : LEntry) : List (Nat × Nat) :=
  (if e.frz then [(e.base 10, (e.k + 7) / 8)] else []) ++ (if e.rule = 4 then [(e.base 9, (e.k + 7) / 8)] else [])

/-- What the first pass of rules B and C reads: every master, and the moments and gradients of the rows that count. -/
def firstReads (s : State) (e : LEntry) : List (Nat × Nat) :=
  if e.rule = 2 ∨ e.rule = 3 then
    (List.range e.k).flatMap (fun k => e.masterRead k :: (if frozenRow s e k then [] else e.rowReads k))
  else []

/-- The update of a layer for step t, band by band (R298). -/
def updateLayer (layer t : Nat) (s : State) : State :=
  let e := lentry s layer
  let s := readExtents e.maps s
  let src := readExtents (firstReads s e) s
  let c := constsOf e t
  let rhos := trustRows src e c
  let s := if rhos.2 then logEvent updPage 4 [layer] src else src
  let x := (List.range ((e.k + 31) / 32)).foldl (fun x j => updateBand layer src e c t rhos.1 j x)
    ({ count := 0, ovf := false, nonfin := rhos.2, poison := none }, s)
  let s := if e.rule = 4 then gnomonWrite false (e.base 9) (List.replicate ((e.k + 7) / 8) 0) whoGnomon x.2 else x.2
  logUsed x.1.poison (bumpPair updPage 0x188 x.1.count s)

/-- A COPY (R299). -/
def copyLayer (layer : Nat) (s : State) : State :=
  let e := lentry s layer
  let s := readExtents ((List.range e.k).map e.masterRead) s
  let bad := mastersPoison s e (List.range e.k)
  logUsed bad (forAll (fun j s => copyBand layer e j (e.band j) s) (List.range ((e.k + 31) / 32)) s)

/-- An update writes the copies: under rule D only when some row is updated. -/
def writesCopies (s : State) (e : LEntry) : Bool := e.rule != 4 || (List.range e.k).any (activeRow s e)

/-! ### The engine's queue (R283 to R286, R300) -/

/-- A layer's run state; one not listed is IDLE with nothing queued. -/
def lyrGet (s : State) (n : Nat) : Layer := mget Layer.reset s.layers n

/-- The state with a layer's run state changed. -/
def lyrMod (n : Nat) (f : Layer → Layer) (s : State) : State :=
  { s with layers := mput Layer.reset s.layers n (f (lyrGet s n)) }

/-- The readers' condition (R283). -/
def readersDone (s : State) (n : Nat) : Bool :=
  decide (lyrPair s n 0x170 ≤ (objGet s (bitsOf (lyrWord s n 0x168) 16 0)).toNat)

/-- STEPSKEW (R284). -/
def judgeSkew (n t : Nat) (s : State) : State :=
  let next := (lyrPair s n 0x160 + 1) % 2 ^ 64
  if t ≠ next then chargeClass 3 t (logEvent updPage 0 [n, t % 2 ^ 32, next % 2 ^ 32] s) else s

/-- The adds of R285 and what else the end of an update, or of a COPY, leaves (R284, R299, R300). -/
def endLayer (n : Nat) (t : Option Nat) (s : State) : State :=
  let b := entryBank n
  let s := match t with
    | some t =>
      setPair b updPage 0x160 t
        (setPair b updPage 0x170 ((lyrPair s n 0x170 + lyrWord s n 0x16C) % 2 ^ 64) s)
    | none => s
  let s := objAdd (bitsOf (lyrWord s n 0x178) 16 0) 1 s
  let s := lyrMod n (fun y => { y with state := if y.queue.isEmpty then 0 else 1, current := none, wrote := false }) s
  bumpPair updPage 0x190 1 s

/-- The head of a layer's queue is taken off; records of the next step that waited are delivered once the update of the
earlier one has read the area (R283). -/
def popLayer (n : Nat) (s : State) : State := lyrMod n (fun y => { y with queue := y.queue.tail }) s
def deliverNext (n : Nat) (s : State) : State :=
  match (lyrGet s n).queue.head? with
  | some (t, _) => deliverLayer n t s
  | none => s

/-- A frozen layer's update ends as soon as R283 holds (R285), again while another waits. -/
def endFrozen (n : Nat) : Nat → State → State
  | 0, s => s
  | fuel + 1, s =>
    let y := lyrGet s n
    match y.queue.head? with
    | none => s
    | some (t, _) =>
      if bitsOf (lyrWord s n 0x104) 2 0 = 0 ∧ readersDone s n ∧ !y.copying ∧ y.current.isNone then
        let s := lyrMod n (fun z => { z with rejected := false }) (popLayer n s)
        endFrozen n fuel (deliverNext n (endLayer n (some t) (judgeSkew n t s)))
      else s

/-- A layer's update for a step becomes eligible (R283): its records are delivered unless an earlier update has the area. -/
def makeEligible (step n : Nat) (s : State) : State :=
  let recs := layerRecords s n step
  let none' := !recs.isEmpty && recs.all (fun r => r.2.state == 5 || r.2.included.isEmpty)
  let first := (lyrGet s n).queue.isEmpty
  let s := lyrMod n (fun y => { y with queue := y.queue ++ [(step, none')], state := if y.state = 0 then 1 else y.state }) s
  let s := if first then deliverLayer n step s else s
  endFrozen n (lyrGet s n).queue.length s

/-- The layers that some command wrote, that hold run state, or that a record of the step names, rising. -/
def layersInUse (s : State) (step : Nat) : List Nat :=
  let written := s.regs.filterMap fun p =>
    if p.1 / 1024 % 16384 = updPage ∧ 65536 ≤ p.1 / (16384 * 1024) ∧ p.1 / (16384 * 1024) < 65536 + 16384
    then some (p.1 / (16384 * 1024) - 65536) else none
  let named := s.red.records.filterMap (fun x => if x.2.step = step then some (bkLayer s (x.1 / 2)) else none)
  (written ++ s.layers.map (·.1) ++ named).foldr (fun n l => kins l n) []

/-- LSTEP of the layers that nothing has written: their rule is NONE and no reader holds them, so that each update
ends at the boundary that makes it eligible (R285). -/
def idleStep (s : State) : Nat := rawPair s cfgBank updPage 0x160

/-- The updates of cnt such layers from a number on end together: STEPSKEW of each, the adds to object 0, and the count. -/
def endIdle (step lo cnt : Nat) (s : State) : State :=
  if cnt = 0 then s
  else
    let next := (idleStep s + 1) % 2 ^ 64
    let s := if step ≠ next then
        chargeClass 3 step (logTimes cnt updPage 0 [lo, step % 2 ^ 32, next % 2 ^ 32] s)
      else s
    bumpPair updPage 0x190 cnt (objAdd 0 (BitVec.ofNat 64 cnt) s)

/-- The update of every layer for the step that a boundary ends becomes eligible, in the order of their numbers.
(DEDUCED, log entry 40.) -/
def allEligible (step : Nat) (s : State) : State :=
  let used := layersInUse s step
  let s := forAll (fun n s => setPair (entryBank n) updPage 0x160 (lyrPair s n 0x160) s) used s
  let x := used.foldl (fun (x : Nat × State) n => (n + 1, makeEligible step n (endIdle step x.1 (n - x.1) x.2))) (0, s)
  setPair cfgBank updPage 0x160 step (endIdle step x.1 (16384 - x.1) x.2)

/-- The layers whose update or COPY may begin: both write the copies only when their readers are done (R283, R298). -/
def mayBegin (s : State) (n : Nat) (y : Layer) : Bool := y.current.isNone && (y.copying || !y.queue.isEmpty) && readersDone s n

/-- A layer's accesses would wait: for Meridian (R471), for a tile that is being made ready (R241), or behind a write of the
home's. -/
def layerWaits (s : State) (n : Nat) : Bool :=
  s.mig.waiters.any (·.isHome) || (lentry s n).extents.any (fun x => gnomonWaits s x.1 x.2)

/-- The engine's accesses to ranges that wait for Meridian start it (R471). -/
def wakeRanges (xs : List (Nat × Nat)) (s : State) : State := forAll (fun (x : Nat × Nat) => wakeHbm x.1 x.2) xs s

/-- An update or COPY of a layer begins (R286, R287). -/
def beginLayer (n : Nat) (s : State) : State :=
  let e := lentry s n
  let y := lyrGet s n
  let s := { s with updating := some (n, s.now) }
  if y.copying then
    let cause := rejectLayer e true
    let s := lyrMod n (fun z => { z with state := 2, rejected := cause != 0, wrote := cause == 0 }) s
    if cause ≠ 0 then logEvent updPage 2 [n + cause * 2 ^ 16] s else copyLayer n s
  else
    match y.queue.head? with
    | none => s
    | some (t, noOne) =>
      let cause := if e.rule = 0 then 0 else rejectLayer e false
      let s := judgeSkew n t (popLayer n s)
      let wrote := cause = 0 && e.rule != 0 && !noOne && writesCopies s e
      let s := lyrMod n (fun z => { z with state := 2, rejected := cause != 0, current := some t, wrote := wrote }) s
      let s :=
        if cause ≠ 0 then logEvent updPage 2 [n + cause * 2 ^ 16] s
        else if e.rule = 0 then s
        else if noOne then logEvent updPage 1 [n] s
        else updateLayer n t s
      deliverNext n s

/-- The lowest-numbered layer that may begin. -/
def nextLayer (s : State) : Option Nat := (s.layers.find? (fun x => mayBegin s x.1 x.2)).map (·.1)

end Sys2Proof.Machine
end

