-- ==== Sys2Proof/Machine/Boundary.lean ====
section
/-! DEFINITION. The step boundary (R382 to R398): readiness, STEPSYNC credits and debts, early deadlines, and the actions of a
boundary in their order. -/
namespace Sys2Proof.Machine

/-! ### A boundary (R393) -/

/-- Action 7: the member deadlines of the current step start. -/
def startDeadlines (s : State) : State :=
  forAll (fun b s => if bkMember s b then startMember b s.bnd.step s else s) (buckets s) s

/-- Action 8. -/
def raiseThreshold (s : State) : State :=
  setPair 0 bndPage 0x110 ((rawPair s 0 bndPage 0x110 + rawWord s 0 bndPage 0x118) % 2 ^ 64) s

/-- Action 9: the determinism record of the step that ended (R398). The boundary is done, and the new step is judged. -/
def writeRecord (step : Nat) (s : State) : State :=
  let bits := classBits s step
  let s := setWord 0 bndPage 0x138 bits (setPair 0 bndPage 0x130 step s)
  let s := modBnd (fun b => { b with closing := false }) (if bits = 0 then s else detEvent step s)
  judgeReadiness s

/-- Action 1: the step number advances, and the credit is consumed or the debt recorded. In mode NONE no credit is kept. -/
def advanceStep (credit debt : Bool) (s : State) : State :=
  let mode := fieldOf s 0 bndPage 0x100 1 0
  let wait := match s.bnd.readyAt with
    | some t => (s.now - t) / 1000
    | none => 0
  bumpPair bndPage 0x148 1 <| modBnd (fun b =>
    { b with
      closing := true, step := (b.step + 1) % 2 ^ 64, begun := s.now, early := false, earlyAt := none, kept := false,
      readyAt := none,
      credits := if mode = 0 then 0 else if credit then b.credits - 1 else b.credits,
      debts := if debt then b.debts + 1 else b.debts, lastWait := wait, modeNow := mode }) s

/-- The reference scale and the partial agreement of each record of the step that ends, as they stand at its end (R324). -/
def freezeRecords (step : Nat) (s : State) : State :=
  modRed (fun r => { r with records := r.records.map (fun x =>
    if x.2.step = step then (x.1, { x.2 with ref := referenceOf s (x.1 / 2) step, partialAg := partialAgreed s (x.1 / 2) step })
    else x) }) s

/-- The boundary that ends the current step: the actions of R393 in order. PROPOSE leaves as each slot is derived.
(DEDUCED, log entry 46.) -/
def fallBoundary (credit debt : Bool) (s : State) : State :=
  let ended := s.bnd.step
  let s := freezeRecords ended (finishDue s)
  let s := advanceStep credit debt s
  let s := modBnd (fun b => { b with outHigh := true }) s
  let s := beginCalibration true s
  let s := commitRecords ended s
  let s := allEligible ended s
  writeRecord ended (raiseThreshold (startDeadlines s))

/-- The boundary falls on hold expiry: SYNCMISS and a debt (R390). -/
def expireHold (s : State) : State := logEvent bndPage 0 [] (fallBoundary false true s)

/-- The boundary falls when its condition holds (R389). A BND_HOLD of 0 never waits. -/
def tryBoundary (s : State) : State :=
  let s := judgeReadiness s
  if !moduleReady s then s
  else if s.bnd.modeNow = 0 then fallBoundary false false s
  else if 0 < s.bnd.credits then fallBoundary true false s
  else if fieldOf s 0 bndPage 0x104 16 0 = 0 then expireHold s
  else s

/-- The hold expires without a credit (R390). -/
def holdEnds (s : State) : State :=
  let s := judgeReadiness s
  match s.bnd.readyAt with
  | none => s
  | some t =>
    if s.bnd.modeNow = 0 ∨ 0 < s.bnd.credits then s
    else expireHold (advanceTo (t + usCycles (fieldOf s 0 bndPage 0x104 16 0)) s)

/-! ### Edges (R388, R390, R392) -/

/-- The deadlines of the current step moved forward by an edge: never later, and never before what BND_MINDL sets. -/
def moveDeadlines (s : State) : State :=
  let least := usCycles (fieldOf s 0 bndPage 0x108 15 0)
  let member := fun (x : Nat × Member) =>
    if x.2.step = s.bnd.step then
      (x.1, { x.2 with deadline := x.2.deadline.map (fun d => min d (max s.now (s.bnd.begun + least))) })
    else x
  let record := fun (x : Nat × Record) =>
    if x.2.step = s.bnd.step ∧ x.2.state = 1 then
      (x.1, { x.2 with deadline := min x.2.deadline (max s.now (x.2.opened + least)) })
    else x
  let s := if s.bnd.early then s else logEvent bndPage 2 [] s
  let s := modRed (fun r => { r with members := r.members.map member, records := r.records.map record }) s
  modBnd (fun b => { b with early := true, earlyAt := b.earlyAt.or (some s.now) }) s

/-- A rising edge of STEPSYNC_IN, not sampled while Gnomon is unpowered (R516). One that pays a debt, or is dropped,
moves no deadline: an edge that does is also a credit. -/
def takeEdge (s : State) : State :=
  if s.power.modState < 2 then s
  else
  let s := judgeReadiness s
  if s.bnd.modeNow = 0 then s
  else if 0 < s.bnd.debts then modBnd (fun b => { b with debts := b.debts - 1 }) s
  else if 15 ≤ s.bnd.credits then logEvent bndPage 1 [] s
  else
    let s := modBnd (fun b => { b with credits := b.credits + 1 }) s
    if s.bnd.modeNow = 2 ∧ pageEn s bndPage ∧ !moduleReady s then moveDeadlines s else s

/-! ### The page (R382, R384, R389, R390) -/

/-- The enable bit is set: step BND_STEP begins, prepared by the actions that prepare a step. The mode written comes into
force. -/
def enableBoundary (s : State) : State :=
  if pageEn s bndPage then s
  else
    let mode := fieldOf s 0 bndPage 0x100 1 0
    let s := setField 0 bndPage 0x008 0 0 1 (finishDue s)
    let s := modBnd (fun b =>
      { b with
        begun := s.now, early := false, earlyAt := none, kept := false, readyAt := none, modeNow := mode,
        credits := if mode = 0 then 0 else b.credits }) s
    judgeReadiness (startDeadlines (beginCalibration false s))

/-- The enable bit is cleared: no boundary occurs (R382), and the step that a new enabling names is agreed afresh (R384). -/
def disableBoundary (s : State) : State := if pageEn s bndPage then ageAgreements (setField 0 bndPage 0x008 0 0 0 s) else s

/-- The step number is set: another number is another step, of which no slot has an observation yet (R82). -/
def setStep (v : Nat) (s : State) : State :=
  if v = s.bnd.step then s
  else
    let s := modBnd (fun b => { b with step := v }) s
    { s with cal := s.cal.map (fun x => (x.1, { x.2 with obs := Obs.none })) }

/-- A write of BND_STEP, LOCKED while the page is enabled (R14, R382). -/
def writeBndStep (r : Req) (wide : Bool) (v : Nat) (s : State) : State :=
  if pageEn s bndPage then logRac 3 bndPage 0x120 true wide r v s
  else setStep (v % 2 ^ 64) s

/-- BNDSKIP. -/
def logBndskip (s : State) : State := logEvent bndPage 4 [] s

/-- A write of BND_CTRL, and of BND_HOLD. -/
def writeBndCtrl (v : Nat) (s : State) : State :=
  if bitsOf v 1 0 = 3 then logBndskip s else storeWord 0 bndPage 0x100 v s
def writeBndHold (v : Nat) (s : State) : State :=
  if 100000 < bitsOf v 16 0 then logBndskip s else storeWord 0 bndPage 0x104 v s

/-! ### Commands -/

/-- The boundary page is enabled. -/
def execBoundaryEnable (_r : Req) (s : State) : Host.Outcome State Fault Refusal := .next (enableBoundary s)

/-- BND_STEP is written. -/
def execBndStepWrite (r : Req) (v : W64) (s : State) : Host.Outcome State Fault Refusal := .next (writeBndStep r true v.toNat s)

/-- BND_CTRL is written. -/
def execBndCtrlWrite (_r : Req) (v : W32) (s : State) : Host.Outcome State Fault Refusal := .next (writeBndCtrl v.toNat s)

/-- BND_HOLD is written. -/
def execBndHoldWrite (_r : Req) (v : W32) (s : State) : Host.Outcome State Fault Refusal := .next (writeBndHold v.toNat s)

/-- The boundary falls. -/
def execBoundary (s : State) : Host.Outcome State Fault Refusal := .next (tryBoundary s)

/-- An edge on STEPSYNC_IN. -/
def execStepsyncEdge (s : State) : Host.Outcome State Fault Refusal := .next (takeEdge s)

/-- The hold expires. -/
def execHoldExpire (s : State) : Host.Outcome State Fault Refusal := .next (holdEnds s)

/-- STEPSYNC_OUT falls, 100 Gnomon cycles after it rose (R391). -/
def execStepsyncOutEnd (s : State) : Host.Outcome State Fault Refusal :=
  .next (if s.bnd.outHigh then modBnd (fun b => { b with outHigh := false }) (advanceTo (s.bnd.begun + 100) s) else s)

end Sys2Proof.Machine
end

