-- ==== Sys2Proof/Machine/Contexts.lean ====
section
/-! DEFINITION. The context page (R223, R224, R230, R412) and the synchronisation-object page (R220, R229). -/
namespace Sys2Proof.Machine

/-- The context page, and the context a requester selected. -/
def ctxPage : Nat := 0x009
def ctxSel (s : State) (r : Req) : Nat := bitsOf (ownWord s r ctxPage 0x100) 13 0

/-- CTXWR (R223). -/
def logCtxwr (ctx : Nat) (s : State) : State := logEvent ctxPage 0 [ctx] s

/-- A write of CTX_CFG (R223, R224): ENABLE, KIND and CANCEL. ENABLE = 1 clears the context's CONTAINED (R414). -/
def writeCtxCfg (r : Req) (v : Nat) (s : State) : State :=
  let ctx := ctxSel s r
  if mayWriteCtx s r ctx then
    let s := setWord (entryBank ctx) ctxPage 0x104 (bitsOf v 1 0) s
    let s := if bitOf v 0 then setWord (entryBank ctx) relPage 0x138 (putBits (jobWord s ctx) 16 16 0) s else s
    if bitOf v 8 then cancelContext ctx s else s
  else logCtxwr ctx s

/-- A write of CTX_SEED. -/
def writeCtxSeed (r : Req) (v : Nat) (s : State) : State :=
  let ctx := ctxSel s r
  if mayWriteCtx s r ctx then setPair (entryBank ctx) ctxPage 0x110 v s else logCtxwr ctx s

/-- CTX_CFG. -/
def execCtxCfgWrite (r : Req) (v : W32) (s : State) : Host.Outcome State Fault Refusal := .next (writeCtxCfg r v.toNat s)

/-- CTX_CFG with CANCEL set and its other fields as they stand. -/
def execCtxCancel (r : Req) (s : State) : Host.Outcome State Fault Refusal :=
  .next (writeCtxCfg r (fieldOf s (entryBank (ctxSel s r)) ctxPage 0x104 1 0 + 2 ^ 8) s)

/-- CTX_SEED. -/
def execCtxSeedWrite (r : Req) (v : W64) (s : State) : Host.Outcome State Fault Refusal := .next (writeCtxSeed r v.toNat s)

/-- The synchronisation-object page, and the object a requester selected. -/
def soPage : Nat := 0x008
def soSel (s : State) (r : Req) : Nat := bitsOf (ownWord s r soPage 0x100) 16 0

/-- SO_VAL: an immediate set. -/
def execSoValWrite (r : Req) (v : W64) (s : State) : Host.Outcome State Fault Refusal := .next (objSet (soSel s r) v s)

/-- SO_ADD: an immediate add. -/
def execSoAddWrite (r : Req) (v : W64) (s : State) : Host.Outcome State Fault Refusal := .next (objAdd (soSel s r) v s)

end Sys2Proof.Machine
end

