-- ==== Sys2Proof/Machine/Dma.lean ====
section
/-! DEFINITION. The DMA queue's commands (R198, R199), the acts of the channels (R263 to R273), and detached transfers
(R275, R276). -/
namespace Sys2Proof.Machine

/-! ### The queue -/

/-- The channel that an XFER names (R198). -/
def xferChan (c : CoreId) (e : QEntry) : ChanId :=
  let n := cmdBits e.word 35 32
  if n < 8 then Fin.ofNat 40 (8 * c.val + n) else Fin.ofNat 40 (24 + n)

/-- The descriptor of an XFER in the core's data memory: its address and words. -/
def xferDescAt (c : CoreId) (e : QEntry) : Nat := 0xE0020100000 + c.val * 0x10000 + 64 * cmdBits e.word 57 48
def readDesc (s : State) (a : Nat) : List Nat := (List.range 16).map (fun k => loadN s (a + 4 * k) 4)

/-- Lowest and highest byte of a remote destination, as a start and a length, which is 0 for a transfer that moves nothing
(R269, R404, R406). -/
def destExtent (d : DDesc) : Nat × Nat :=
  if d.rows = 0 then (d.dest.module * 2 ^ 44 + d.dest.local, 0)
  else
  let span := (List.zip d.ds d.cs).map (fun p => p.1 * ((p.2 : Int) - 1))
  let lo := span.foldl (fun a x => a + min x 0) (d.dest.local : Int)
  let hi := span.foldl (fun a x => a + max x 0) (d.dest.local : Int) + ((d.c0 * d.unit d.dfmt : Nat) : Int)
  (d.dest.module * 2 ^ 44 + lo.toNat, (hi - lo).toNat)

/-- An XFER whose descriptor passed: its transfer goes into the channel's shadow set. -/
def loadPushed (c : CoreId) (ch : ChanId) (e : QEntry) (desc : List Nat) (s : State) : State :=
  let d := descOf desc
  let fl := flightOf .dma e
  let t := (s.core c).sched.task
  let number := (t.map (·.transfers)).getD 0
  let remote := d.dmode == 0 && d.dest.module != moduleId s
  let run := (t.map (·.run)).getD .original
  let x := newXfer desc (some (c.val, fl)) none ((t.map (·.ctx)).getD 0) (trWords s c d.source.treg) (trWords s c d.dest.treg)
    (mfind e.rcap d.source.treg) (mfind e.wcap d.dest.treg) number (remote && run != .original)
  let s := modCore c (modTask (fun t =>
    { t with
      transfers := t.transfers + 1
      digest := if remote then { t.digest with
          remote := mset t.digest.remote number (mget 0 t.digest.remote number)
          extents := mset t.digest.extents number (destExtent d) }
        else t.digest })) s
  loadShadow ch x (addFlight c fl s)

/-- An XFER is taken: a poisoned descriptor is consumed, a failing one rejected (R267, R413). -/
def takeXfer (c : CoreId) (e : QEntry) (s : State) : State :=
  let a := xferDescAt c e
  let ch := xferChan c e
  match firstPoison s [(a, 64)] with
  | some b => consumeTask c b s
  | none =>
    let desc := readDesc s a
    let d := descOf desc
    match rejectCause s d false (treg s c d.source.treg) (treg s c d.dest.treg) with
    | some cause => logDreject ch cause e.idx false s
    | none => loadPushed c ch e desc s

/-- A DMA NOP. -/
def execDmaNop (c : CoreId) (s : State) : Host.Outcome State Fault Refusal :=
  .next (takeWhen c .dma (opIs 0) (completeNow c .dma) s)

/-- A core's XFER for a channel waits at the head of its queue and could be taken. -/
def xferWaits (s : State) (ch : ChanId) (c : CoreId) : Bool :=
  let k := s.core c
  match k.queues.dma.head? with
  | none => false
  | some e => k.live && replayClear k e && opIs 1 e && xferChan c e == ch

/-- XFER: taken when the named channel's shadow set is empty; of several cores' that wait for one, the lowest-numbered core's
(R199). -/
def execXfer (c : CoreId) (s : State) : Host.Outcome State Fault Refusal :=
  let mayTake := fun (e : QEntry) =>
    opIs 1 e && (s.chan (xferChan c e)).shadow.isNone &&
      allCores.all (fun b => decide (c.val ≤ b.val) || !xferWaits s (xferChan c e) b)
  .next (takeWhen c .dma mayTake (takeXfer c) s)

/-- A DMA command with a reserved OP. -/
def execDmaReservedOp (c : CoreId) (s : State) : Host.Outcome State Fault Refusal :=
  .next (takeWhen c .dma (fun e => decide (1 < cmdOp e.word)) (logBadop c .dma) s)

/-! ### The channels -/

/-- A descriptor becomes active. -/
def execDescriptorActivate (ch : ChanId) (s : State) : Host.Outcome State Fault Refusal := .next (activate ch s)

/-- A transfer completes. -/
def execXferComplete (ch : ChanId) (s : State) : Host.Outcome State Fault Refusal := .next (xferDone ch s)

/-- A progress add. -/
def execProgressAdd (ch : ChanId) (s : State) : Host.Outcome State Fault Refusal := .next (progress ch s)

/-- The tags that reads of a dropped transfer still hold. -/
def lateTags (s : State) (ch serial : Nat) : List Nat :=
  s.txn.tags.filterMap (fun t => match t.2.use with
    | .rowRead c n _ _ => if c = ch ∧ n = serial then some t.1 else none
    | .dropped _ => none
    | .rowWrite _ _ _ => none
    | .readBack c n => if c = ch ∧ n = serial then some t.1 else none
    | .rop _ => none
    | .pnotice => none)

/-- Read data of a dropped transfer returns: it is dropped and its tags are freed (R226). -/
def execLatedrop (ch : ChanId) (s : State) : Host.Outcome State Fault Refusal :=
  match (s.chan ch).late with
  | [] => .next s
  | n :: _ => .next (forAll releaseTag (lateTags s ch.val n) (lateReturn ch.val n s))

/-! ### Detached transfers (R275, R276) -/

/-- The module-wide channel of a number. -/
def wideChan (k : Fin 8) : ChanId := Fin.ofNat 40 (32 + k.val)

/-- The staging image of a module-wide channel (R278). -/
def stagedDesc (s : State) (k : Fin 8) : List Nat :=
  (List.range 16).map (fun w => rawWord s 0 0x014 (0x500 + 0x40 * k.val + 4 * w))

/-- A requester may start a detached transfer of a context. -/
def mayStart (s : State) (r : Req) (ctx : Nat) : Bool :=
  match r with
  | .vesper => true
  | .core _ => true
  | .func p f => funcQualifies s p f ctx

/-- An abort: of a detached transfer or descriptor, or skipped when there is none. -/
def abortWrite (k : Fin 8) (s : State) : State :=
  let x := s.chan (wideChan k)
  let det := fun (y : Option Xfer) => y.any (fun z => z.owner.isNone)
  if det x.active || det x.shadow then abortDetached k s else logDmaskip (wideChan k) s

/-- A start. -/
def startWrite (r : Req) (k : Fin 8) (s : State) : State :=
  let ch := wideChan k
  let ctx := fieldOf s 0 0x014 (dmaOff ch 0x6C) 13 0
  if !mayStart s r ctx ∨ (s.chan ch).shadow.isSome ∨ allCores.any (xferWaits s ch) then logDmaskip ch s
  else
    let desc := stagedDesc s k
    match rejectCause s (descOf desc) true (tregOf []) (tregOf []) with
    | some cause => logDreject ch cause 0 true (modChan ch (fun z => { z with lastOutcome := 3 }) s)
    | none => loadShadow ch (newXfer desc none (some r) ctx [] [] none none 0 false) s

end Sys2Proof.Machine
end

