-- ==== Sys2Proof/Machine/HostPorts.lean ====
section
/-! DEFINITION. The commands of the host interface (R425 to R442, R449). -/
namespace Sys2Proof.Machine

/-- A read through the memory window; a request that is neither a read nor a write is unsupported (R430). -/
def execMemoryWindowRead (p : Fin 2) (f : Fin 65) (x : Nat) (q : WinReq) (s : State) : Host.Outcome State Fault Refusal :=
  .next (match q with
    | .read len => windowAccess p f
        { fn := f.val, off := x, addr := mwBase s p f + x, len := len, data := none, poison := false, ctl := none,
          arrived := s.now } s
    | .other => unsupported p f false s)

/-- A write through the memory window. -/
def execMemoryWindowWrite (p : Fin 2) (f : Fin 65) (x : Nat) (data : List Byte) (poison : Bool) (s : State) :
    Host.Outcome State Fault Refusal :=
  .next (windowAccess p f
    { fn := f.val, off := x, addr := mwBase s p f + x, len := data.length, data := some data, poison := poison, ctl := none,
      arrived := s.now } s)

/-- A doorbell is rung. -/
def execDoorbell (p : Fin 2) (f : Fin 65) (d : BitVec 8) (v : W64) (s : State) : Host.Outcome State Fault Refusal :=
  .next (ringDoorbell p f d.toNat v s)

/-- A doorbell's add takes effect. -/
def execDoorbellApply (p : Fin 2) (s : State) : Host.Outcome State Fault Refusal := .next (applyDoorbell p s)

/-- HIF_DBOBJ. -/
def execHifDbobjWrite (p : Fin 2) (f : Fin 65) (v : W32) (s : State) : Host.Outcome State Fault Refusal :=
  .next (writeDbobj p f v.toNat s)

/-- HIF_WCFG. -/
def execHifWcfgWrite (p : Fin 2) (f : Fin 65) (v : W32) (s : State) : Host.Outcome State Fault Refusal :=
  .next (writeWcfg p f v.toNat s)

/-- A watch fires. -/
def execWatchFire (p : Fin 2) (f : Fin 65) (w : BitVec 10) (s : State) : Host.Outcome State Fault Refusal :=
  .next (fireWatch p f w.toNat s)

/-- A vector is written to the host. -/
def execMsixWrite (p : Fin 2) (f : Fin 65) (vec : BitVec 11) (s : State) : Host.Outcome State Fault Refusal :=
  .next (writeVector p f vec.toNat s)

/-- FEATOK is written 1. -/
def execFeatok (p : Fin 2) (f : Fin 65) (s : State) : Host.Outcome State Fault Refusal := .next (acceptFeatures p f s)

/-- FEATOK is written 0. -/
def execFeatureWithdraw (p : Fin 2) (f : Fin 65) (s : State) : Host.Outcome State Fault Refusal :=
  .next (withdrawFeatures p f s)

/-- HIF_MWBASE. -/
def execHifMwbaseWrite (p : Fin 2) (f : Fin 65) (v : W64) (s : State) : Host.Outcome State Fault Refusal :=
  .next (writeMwbase p f v.toNat s)

/-- HIF_CTXASSIGN assigns. -/
def execCtxAssign (r : Req) (port : Fin 2) (fn : Fin 65) (s : State) : Host.Outcome State Fault Refusal :=
  .next (assignCtx r port fn s)

/-- HIF_CTXASSIGN unassigns. -/
def execCtxUnassign (r : Req) (s : State) : Host.Outcome State Fault Refusal := .next (unassignCtx r s)

/-- HIF_ADMIN. -/
def execHifAdminWrite (r : Req) (v : W32) (s : State) : Host.Outcome State Fault Refusal := .next (writeAdmin r v.toNat s)

/-- A function-level reset: of the physical function, the whole port's. -/
def execFunctionLevelReset (p : Fin 2) (f : Fin 65) (s : State) : Host.Outcome State Fault Refusal :=
  .next (if f.val = 0 then resetPort p s else resetFunc p f s)

/-- A hot reset. -/
def execHotReset (p : Fin 2) (s : State) : Host.Outcome State Fault Refusal := .next (resetPort p s)

/-- PERST# is asserted: a conventional reset, and the link goes down. -/
def execPerstAssert (p : Fin 2) (s : State) : Host.Outcome State Fault Refusal :=
  .next (modHost p (fun h => { dropLink h with perst := true }) (resetPort p s))

/-- PERST# is released; the port trains once stage HOST has begun. -/
def execPerstRelease (p : Fin 2) (refclk : Bool) (s : State) : Host.Outcome State Fault Refusal :=
  .next (trainPort p (modHost p (fun h => { h with perst := false, refclk := refclk }) s))

/-- VF Enable is cleared. -/
def execVfEnableClear (p : Fin 2) (s : State) : Host.Outcome State Fault Refusal := .next (clearVfs p s)

/-- A configuration request is answered. -/
def execConfigurationRequest (p : Fin 2) (f : Fin 65) (q : CfgReq) (s : State) : Host.Outcome State Fault Refusal :=
  .next (cfgRequest p f q.reg q.write s)

end Sys2Proof.Machine
end

