-- ==== Sys2Proof/Machine/Links.lean ====
section
/-! DEFINITION. The commands of the Ickor links and routers (R328 to R355). -/
namespace Sys2Proof.Machine

/-- Signal is detected. -/
def execSignalDetect (p : PortId) (s : State) : Host.Outcome State Fault Refusal :=
  .next (if (portOf s p).state = 1 then modPort p (fun k => { k with state := 2 }) s else s)

/-- The receiver has adapted. -/
def execAdaptDone (p : PortId) (s : State) : Host.Outcome State Fault Refusal :=
  .next (if (portOf s p).state = 2 then modPort p (fun k => { k with state := 3 }) s else s)

/-- Alignment markers lock; PRT_LANES shows what was found. -/
def execAlignLock (p : PortId) (order : BitVec 8) (pol : BitVec 4) (s : State) : Host.Outcome State Fault Refusal :=
  .next (if (portOf s p).state = 3 then
    setWord 0 (prtPage p) (prtOff p 8) (order.toNat + pol.toNat * 256) (modPort p (fun k => { k with state := 4 }) s)
  else s)

/-- A TRAIN flit. -/
def execTrainFlit (p : PortId) (x : Flit) (s : State) : Host.Outcome State Fault Refusal :=
  .next (receiveFlit p x 3 (fun _ => takeTrain p x) s)

/-- Training exceeds ICK_TRAINTO: TRAINFAIL with the state reached, and 10 ms of rest in DOWN. -/
def execTrainfail (p : PortId) (s : State) : Host.Outcome State Fault Refusal :=
  let k := portOf s p
  .next (match k.leftDown with
    | none => s
    | some t =>
      if k.state = 0 ∨ k.state = 5 then s
      else
        let s := advanceTo (t + msCycles (fieldOf s 0 ickPage 0x120 15 0)) s
        let s := logPort p 2 k.state 0 (portDown p s)
        modPort p (fun k => { k with rest := true, leftDown := some (s.now + msCycles 10) }) s)

/-- The rest after TRAINFAIL ends. -/
def execTrainRestEnd (p : PortId) (s : State) : Host.Outcome State Fault Refusal :=
  let k := portOf s p
  .next (if k.rest then
    tryTrain p (modPort p (fun k => { k with rest := false, leftDown := none }) (advanceTo (k.leftDown.getD s.now) s))
  else s)

/-- FEC lock is lost in UP. (DESIGN CHOICE, log entry 56.) -/
def execFecLockLost (p : PortId) (s : State) : Host.Outcome State Fault Refusal :=
  .next (if (portOf s p).state = 5 then retrainPort p s else s)

/-- A DATA flit. -/
def execDataFlit (p : PortId) (x : Flit) (s : State) : Host.Outcome State Fault Refusal :=
  .next (receiveFlit p x 1 (takeData p x) s)

/-- An IDLE flit. -/
def execIdleFlit (p : PortId) (x : Flit) (s : State) : Host.Outcome State Fault Refusal :=
  .next (receiveFlit p x 0 (fun h s => if (portOf s p).state = 5 then takeHeader p h s else s) s)

/-- A NAK flit. -/
def execNakFlit (p : PortId) (x : Flit) (s : State) : Host.Outcome State Fault Refusal :=
  .next (receiveFlit p x 2 (takeNak p) s)

/-- A flit with a reserved type or reserved bits set; any other is another row's. -/
def execReservedFlit (p : PortId) (x : Flit) (s : State) : Host.Outcome State Fault Refusal :=
  .next (receiveFlit p x 4 (fun _ s => s) s)

/-- An output sends its next flit. -/
def execFlitSend (p : PortId) (s : State) : Host.Outcome State Fault Refusal := .next (sendNext p s)

/-- A message is injected. -/
def execMessageInject (m : Msg) (s : State) : Host.Outcome State Fault Refusal := .next (injectMsg m s)

/-- The hold of a flow ends, which is to use port p. -/
def execFlowholdExpire (p : PortId) (src dest vc flow : Nat) (s : State) : Host.Outcome State Fault Refusal :=
  .next (match flowHold s src dest vc flow with
    | none => s
    | some h =>
      if pickPort h.new src dest vc flow = some p then
        runRouters (modIck (fun k => { k with holds := k.holds.filter (fun x => decide (h.till < x.till)) }) (advanceTo h.till s))
      else s)

end Sys2Proof.Machine
end

