-- ==== Sys2Proof/Machine/MgmtOps.lean ====
section
/-! DEFINITION. The management network (R461 to R464), attestation (R455 to R457) and firmware update (R465). An answer leaves as
the model's number of the message with its body; the body's layout is DMTF's, a function of what the manual determines
(DESIGN CHOICE, log entry 13). -/
namespace Sys2Proof.Machine

/-! ### Who is served (R448, R456, R461) -/

/-- The management network has started and still runs: after stage VIMG, and when the boot has stopped. -/
def mgmtUp (s : State) : Bool :=
  decide (1 ≤ s.power.modState) && !s.vesper.recovery && (decide (3 ≤ s.vesper.stage) || s.vesper.stopped)

/-- MCTP reaches Vesper on a path: Ethernet when enabled, SMBus; recovery serves SMBus alone. -/
def mctpServes (s : State) (path : Path) : Bool :=
  match path with
  | .ethernet => mgmtUp s && bitOf (rawWord s 0 vesperPage 0x1A0) 0
  | .smbus => mgmtUp s || (s.vesper.recovery && decide (1 ≤ s.power.modState))
  | .doe _ => false

/-- SPDM reaches Vesper: over MCTP, or through a physical function's data object exchange. -/
def spdmServes (s : State) (path : Path) : Bool :=
  match path with
  | .ethernet => mctpServes s path
  | .smbus => mctpServes s path && !s.vesper.recovery
  | .doe p => mgmtUp s && (s.host p).trained && !s.vesper.booting && decide (8 ≤ s.vesper.stage)

/-- PLDM other than firmware update; recovery does not offer it. -/
def pldmServes (s : State) (path : Path) : Bool := mctpServes s path && !s.vesper.recovery

/-- An answer leaves on a path. -/
def answer (path : Path) (kind : Nat) (args : List Nat) (s : State) : State := mail path kind (Config.standardBody kind args) s

/-! ### SPDM (R455 to R457) -/

/-- Each path keeps a connection of its own. -/
def pathCode : Path → Nat
  | .ethernet => 0
  | .smbus => 1
  | .doe p => 2 + p.val

/-- Connection state: 0 none, 1 version, 2 capabilities, 3 algorithms. -/
def spdmState (s : State) (path : Path) : Nat := mget 0 s.vesper.spdm (pathCode path)
def setSpdm (path : Path) (n : Nat) (s : State) : State :=
  modVesper (fun v => { v with spdm := mset v.spdm (pathCode path) n }) s

/-- ERROR with a code: 0x01 InvalidRequest, 0x04 UnexpectedRequest, 0x05 Unspecified, 0x07 UnsupportedRequest. -/
def spdmError (path : Path) (code : Nat) (s : State) : State := answer path 0x57F [code] s

/-- A request that needs a connection state: answered by f, else an ERROR. (PRESUMED, log entry 66.) -/
def spdmIn (path : Path) (need : Nat) (f : State → State) (s : State) : State :=
  if !spdmServes s path then s else if need ≤ spdmState s path then f s else spdmError path 0x04 s

/-- The identity area, which holds the certificate chain (R454). -/
def identityArea (s : State) : Nat := natOfBytes (identityBytes s)

/-- Bytes of the record copy in use: up to its signature's end. -/
def recordCopy (s : State) : List Byte := flashBytes s (recordAt s.vesper.cfgCopy) (288 + recordNat s 284 4 + 65)

/-- What each index measures (R457). -/
def measured (s : State) (i : Nat) : List Byte :=
  let v := s.vesper
  let flag := fun (b : Bool) => if b then 1 else 0
  if i = 1 then Config.romVersion :: (List.range 4).flatMap (fun k => bytesOfNat 32 (Config.romHash k).toNat)
  else if i ≤ 4 then flashBytes s (imageAt v.slot (i - 1)) 64
  else if i = 5 then recordCopy s
  else if i = 6 then Config.standardBody 0x606 [v.revoked, v.floor]
  else if i = 7 then Config.standardBody 0x607 [v.slot, flag v.trial, flag v.fallback]
  else Config.standardBody 0x608 [v.scopesSticky]

/-- The measurement with an index. -/
def measurement (s : State) (i : Nat) : Nat := (Config.sm3 (measured s i)).toNat

/-- An answer signed with the identity key, over what it answers; none without an identity. -/
def signedAnswer (path : Path) (kind : Nat) (args : List Nat) (s : State) : State :=
  match s.vesper.seed with
  | none => spdmError path 0x05 s
  | some d =>
    let args := args ++ [(Config.nonce s.vesper.nonces).toNat]
    let sig := natOfBytes (Config.sm2Sign (identityKey d) (Config.standardBody (kind + 0x1000) args))
    answer path kind (args ++ [sig]) (modVesper (fun v => { v with nonces := v.nonces + 1 }) s)

/-- GET_MEASUREMENTS: 0 asks for the count, 1 to 8 for one, 0xFF for all. -/
def measurements (path : Path) (index : Nat) (nonce : BitVec 256) (sign : Bool) (s : State) : State :=
  let all := [1, 2, 3, 4, 5, 6, 7, 8]
  if index ≠ 0 ∧ index ≠ 0xFF ∧ 8 < index then spdmError path 0x01 s
  else
    let is := if index = 0 then [] else if index = 0xFF then all else [index]
    let args := [index, 8] ++ is.flatMap (fun i => [i, measurement s i])
    if sign then signedAnswer path 0x560 (args ++ [nonce.toNat]) s else answer path 0x560 args s

/-! ### MCTP and Ethernet (R461, R462) -/

/-- The module's IPv4 address, and its MAC address. -/
def ownIp (s : State) : W32 :=
  if bitOf (rawWord s 0 vesperPage 0x1A0) 1 then s.vesper.ip else BitVec.ofNat 32 (rawWord s 0 vesperPage 0x1A4)
def macBytes (s : State) : List Byte := flashBytes s (recordAt s.vesper.cfgCopy + 66) 6

/-- The Ethernet port serves. -/
def etherUp (s : State) : Bool := mctpServes s .ethernet

/-- An Ethernet frame that the module sends: 1 ARP reply, 2 ICMP echo reply, 3 DHCP. -/
def sendFrame (kind : Nat) (data : List Byte) (s : State) : State := { s with out := s.out ++ [.ethernet kind data] }

/-- The message types that Vesper accepts (R462); a packet tells its message's type when it begins the message, behind the 4-byte
header of MCTP (PRESUMED, log entry 109). -/
def typeAccepted (data : List Byte) : Bool :=
  let starts := bitOf (data.getD 3 0).toNat 7
  !starts || [0x00, 0x01, 0x05, 0x7F].contains ((data.getD 4 0).toNat % 128)

/-- An SMBus address is Vesper's: the strapped one, or, in a recovery that never sampled the straps, any that they can give
(DESIGN CHOICE, log entry 109). -/
def ownSmbAddr (s : State) (a : Nat) : Bool :=
  if s.vesper.smbAddr = 0 then decide (0x60 ≤ a ∧ a < 0x68) else a == s.vesper.smbAddr

/-- A packet is taken; the request it carries is a command of its own. -/
def takePacket (path : Path) (data : List Byte) (s : State) : State :=
  if typeAccepted data then modVesper (fun v => { v with rx := v.rx ++ [(path, data)] }) s else s

/-- A datagram's prefix and length are those of R461. -/
def datagramOk (d : List Byte) : Bool := d.take 4 == [1, 0, 0, 0] && decide (d.length ≤ 1028)

/-- A reading of a sensor of R480, as a 32-bit code. -/
def sensorReading (s : State) (id : Nat) : Option Nat :=
  let p := s.power
  if 1 ≤ id ∧ id ≤ 16 then some (codeOf 32 (p.temps.getD (id - 1) 0))
  else if id = 17 then some p.vin
  else if id = 18 then some p.modW
  else if id = 19 then some p.merW
  else if id = 20 then some p.fcore
  else none

/-! ### Firmware update (R465) -/

/-- FWUPD. -/
def logFwupd (comp : Nat) (s : State) : State := logEvent vesperPage 6 [comp] s

/-- The record copy that is older: one that is not valid, else the one with the lower sequence number. (DEDUCED, log entry 64.) -/
def olderCopy (s : State) : Nat :=
  let v0 := recordValid s 0
  let v1 := recordValid s 1
  if v0 && !v1 then 1 else if v1 && !v0 then 0 else if recordSeq s 0 < recordSeq s 1 then 0 else 1

/-- Where a component goes: a bundle into the slot that is not booted, in recovery into either, as asked; a record into the older
copy (R448, R465). -/
def compSlot (s : State) (comp : Nat) (slotB : Bool) : Nat :=
  if comp = 1 then (if s.vesper.recovery then (if slotB then 1 else 0) else 1 - s.vesper.slot) else olderCopy s

/-- Where the component being written lies, and the most bytes a component may take. -/
def compAt (s : State) : Nat := if s.vesper.updComp = 1 then slotAt s.vesper.updSlot else recordAt s.vesper.updSlot
def compMax (comp : Nat) : Nat := if comp = 1 then 0x2000000 else 0x10000

/-- The written component is checked by R446 or R451: whether it passes, and IMGFAIL for each image that fails. -/
def checkComp (s : State) : Bool × State :=
  let k := s.vesper.updSlot
  if s.vesper.updComp = 1 then
    let a := checkImage k 1 s
    let b := checkImage k 2 a.2
    let c := checkImage k 3 b.2
    (a.1 && b.1 && c.1, c.2)
  else (recordValid s k, s)

/-- An answer of the firmware-update protocol: the command's number, a completion code (0 success, 1 refused, 2 wrong
state) and
further values. -/
def fwAnswer (path : Path) (cmd code : Nat) (more : List Nat) (s : State) : State := answer path (0x200 + cmd) (code :: more) s

/-- A command of the protocol that some states of the update allow. -/
def fwIn (path : Path) (cmd : Nat) (states : List Nat) (f : State → State) (s : State) : State :=
  if !mctpServes s path then s
  else if states.contains s.vesper.updState then f s
  else fwAnswer path cmd 2 [] s

/-- The update's state is set. -/
def setUpd (n : Nat) (s : State) : State := modVesper (fun v => { v with updState := n }) s

/-- A component has been applied: FWUPD; a bundle's slot is no longer marked failed, and recovery boots again. -/
def applyComp (s : State) : State :=
  let comp := s.vesper.updComp
  let s := logFwupd comp (modVesper (fun v => { v with updState := 2, updWritten := kins v.updWritten comp }) s)
  if comp = 1 then
    let s := modBoot (fun v => { v with failed := kdel v.failed v.updSlot }) s
    modVesper (fun v =>
      { v with updBundle := v.updSlot, booting := v.booting || v.recovery, stage := if v.recovery then 0 else v.stage
               recovery := false }) s
  else s

end Sys2Proof.Machine
end

