-- ==== Sys2Proof/Machine/Management.lean ====
section
/-! DEFINITION. The commands of attestation, the management network and firmware update (R455 to R465). Kinds of an answer: 0x500
and the SPDM response code; 0x000 and the MCTP control command; 0x100 and the PLDM command of types 0 and 2; 0x200 and that of
firmware update. -/
namespace Sys2Proof.Machine

/-! ### SPDM -/

/-- GET_VERSION: 1.2; the connection begins afresh. -/
def execSpdmGetVersion (path : Path) (s : State) : Host.Outcome State Fault Refusal :=
  .next (spdmIn path 0 (fun s => answer path 0x504 [0x12] (setSpdm path 1 s)) s)

/-- GET_CAPABILITIES: CERT_CAP, CHAL_CAP, MEAS_CAP with signatures. -/
def execSpdmGetCapabilities (path : Path) (s : State) : Host.Outcome State Fault Refusal :=
  .next (spdmIn path 1 (fun s => answer path 0x561 [1, 1, 2] (setSpdm path 2 s)) s)

/-- NEGOTIATE_ALGORITHMS: SM2 and SM3, when the requester offers both. -/
def execSpdmNegotiateAlgorithms (path : Path) (sm2 sm3 : Bool) (s : State) : Host.Outcome State Fault Refusal :=
  .next (spdmIn path 2 (fun s =>
    if sm2 && sm3 then answer path 0x563 [1, 1] (setSpdm path 3 s) else spdmError path 0x01 s) s)

/-- GET_DIGESTS: slot 0's. -/
def execSpdmGetDigests (path : Path) (s : State) : Host.Outcome State Fault Refusal :=
  .next (spdmIn path 3 (fun s => answer path 0x501 [identityArea s] s) s)

/-- GET_CERTIFICATE: slot 0, at most 1,024 bytes. -/
def execSpdmGetCertificate (path : Path) (slot off len : Nat) (s : State) : Host.Outcome State Fault Refusal :=
  .next (spdmIn path 3 (fun s =>
    if slot = 0 then answer path 0x502 [off, min len 1024, identityArea s] s else spdmError path 0x01 s) s)

/-- CHALLENGE: signed with the identity key. -/
def execSpdmChallenge (path : Path) (slot : Nat) (nonce : BitVec 256) (s : State) : Host.Outcome State Fault Refusal :=
  .next (spdmIn path 3 (fun s =>
    if slot = 0 then signedAnswer path 0x503 [nonce.toNat, identityArea s] s else spdmError path 0x01 s) s)

/-- GET_MEASUREMENTS. -/
def execSpdmGetMeasurements (path : Path) (index : Nat) (nonce : BitVec 256) (sign : Bool) (s : State) :
    Host.Outcome State Fault Refusal :=
  .next (spdmIn path 3 (measurements path index nonce sign) s)

/-- RESPOND_IF_READY: no answer is ever deferred, so none waits. -/
def execSpdmRespondIfReady (path : Path) (_code _token : Nat) (s : State) : Host.Outcome State Fault Refusal :=
  .next (spdmIn path 0 (spdmError path 0x04) s)

/-- Any other request. -/
def execSpdmUnsupported (path : Path) (_code : BitVec 8) (s : State) : Host.Outcome State Fault Refusal :=
  .next (spdmIn path 0 (spdmError path 0x07) s)

/-- A data object exchange discovery request (R456): vendor 0x0001, types 0x00 and 0x01, and the next index. -/
def execDoeDiscovery (p : Fin 2) (index : Nat) (s : State) : Host.Outcome State Fault Refusal :=
  .next (if spdmServes s (.doe p) then
    mail (.doe p) 0 (if index = 0 then [1, 0, 0, 1] else if index = 1 then [1, 0, 1, 0] else [0xFF, 0xFF, 0, 0]) s
  else s)

/-! ### Media (R461) -/

/-- A datagram to a UDP port: it is taken at VSP_UDPPORT; one with a wrong prefix or length is discarded. -/
def execMctpDatagram (d : Datagram) (s : State) : Host.Outcome State Fault Refusal :=
  .next (if etherUp s && d.port.toNat == wireSource s .ethernet && datagramOk d.data then takePacket .ethernet (d.data.drop 4) s
    else s)

/-- An SMBus packet to an address, at most 64 bytes: it is taken at Vesper's own. -/
def execSmbusPacket (d : SmbPacket) (s : State) : Host.Outcome State Fault Refusal :=
  .next (if mctpServes s .smbus && ownSmbAddr s d.addr.toNat && decide (d.data.length ≤ 64) then takePacket .smbus d.data s
    else s)

/-- An ARP request for the module's address: answered with its MAC. -/
def execArpRequest (addr : W32) (s : State) : Host.Outcome State Fault Refusal :=
  .next (if etherUp s && addr == ownIp s then sendFrame 1 (macBytes s ++ bytesOfNat 4 addr.toNat) s else s)

/-- An ICMP echo request: answered with its data. -/
def execIcmpEcho (addr : W32) (data : List Byte) (s : State) : Host.Outcome State Fault Refusal :=
  .next (if etherUp s && addr == ownIp s then sendFrame 2 data s else s)

/-- A DHCPv4 exchange leases an address, when DHCP is set. -/
def execDhcpExchange (leased : W32) (s : State) : Host.Outcome State Fault Refusal :=
  .next (if etherUp s && bitOf (rawWord s 0 vesperPage 0x1A0) 1 then
    sendFrame 3 (macBytes s ++ bytesOfNat 4 leased.toNat) (modVesper (fun v => { v with ip := leased }) s)
  else s)

/-! ### MCTP control messages (R462) -/

/-- Set Endpoint ID: 0x00 and 0xFF are no endpoint's. -/
def execSetEndpointId (path : Path) (eid : Byte) (s : State) : Host.Outcome State Fault Refusal :=
  .next (if mctpServes s path then
    if eid = 0 ∨ eid = 0xFF then answer path 0x001 [2, s.vesper.eid] s
    else answer path 0x001 [0, eid.toNat] (modVesper (fun v => { v with eid := eid.toNat }) s)
  else s)

/-- Get Endpoint ID. -/
def execGetEndpointId (path : Path) (s : State) : Host.Outcome State Fault Refusal :=
  .next (if mctpServes s path then answer path 0x002 [0, s.vesper.eid] s else s)

/-- Get MCTP Version Support. -/
def execGetMctpVersionSupport (path : Path) (s : State) : Host.Outcome State Fault Refusal :=
  .next (if mctpServes s path then answer path 0x004 [0] s else s)

/-- Get Message Type Support: control, PLDM, SPDM and vendor defined. -/
def execGetMessageTypeSupport (path : Path) (s : State) : Host.Outcome State Fault Refusal :=
  .next (if mctpServes s path then answer path 0x005 [0, 0x00, 0x01, 0x05, 0x7F] s else s)

/-- Get Vendor Defined Message Support: Fortaner's identifier. -/
def execGetVendorMessageSupport (path : Path) (s : State) : Host.Outcome State Fault Refusal :=
  .next (if mctpServes s path then answer path 0x006 [0, Config.vendorId (recordCopy s)] s else s)

/-! ### PLDM types 0 and 2 (R464) -/

/-- GetTID. -/
def execGetTid (path : Path) (s : State) : Host.Outcome State Fault Refusal :=
  .next (if pldmServes s path then answer path 0x102 [0, s.vesper.tid] s else s)

/-- SetTID. -/
def execSetTid (path : Path) (tid : Byte) (s : State) : Host.Outcome State Fault Refusal :=
  .next (if pldmServes s path then answer path 0x101 [0] (modVesper (fun v => { v with tid := tid.toNat }) s) else s)

/-- GetPLDMVersion of a type that is served. -/
def execGetPldmVersion (path : Path) (ty : Nat) (s : State) : Host.Outcome State Fault Refusal :=
  .next (if pldmServes s path then
    answer path 0x103 [if ty = 0 ∨ ty = 2 ∨ ty = 5 then 0 else 1, ty] s else s)

/-- GetPLDMTypes. -/
def execGetPldmTypes (path : Path) (s : State) : Host.Outcome State Fault Refusal :=
  .next (if pldmServes s path then answer path 0x104 [0, 0, 2, 5] s else s)

/-- GetPLDMCommands of a type that is served. -/
def execGetPldmCommands (path : Path) (ty : Nat) (s : State) : Host.Outcome State Fault Refusal :=
  .next (if pldmServes s path then
    answer path 0x105 [if ty = 0 ∨ ty = 2 ∨ ty = 5 then 0 else 1, ty] s else s)

/-- SetEventReceiver: reports go there from then on. -/
def execSetEventReceiver (path : Path) (eid : Byte) (s : State) : Host.Outcome State Fault Refusal :=
  .next (if pldmServes s path then
    answer path 0x104 [2, 0] (modVesper (fun v => { v with receiver := some (path, eid.toNat) }) s) else s)

/-- GetSensorReading. -/
def execGetSensorReading (path : Path) (id : Nat) (s : State) : Host.Outcome State Fault Refusal :=
  .next (if pldmServes s path then
    match sensorReading s id with
    | some v => answer path 0x111 [0, id, v] s
    | none => answer path 0x111 [1, id] s
  else s)

/-! ### PLDM firmware update (R465) -/

/-- QueryDeviceIdentifiers. -/
def execQueryDeviceIdentifiers (path : Path) (s : State) : Host.Outcome State Fault Refusal :=
  .next (if mctpServes s path then fwAnswer path 0x01 0 [] s else s)

/-- GetFirmwareParameters: the components with their comparison stamps. -/
def execGetFirmwareParameters (path : Path) (s : State) : Host.Outcome State Fault Refusal :=
  .next (if mctpServes s path then
    fwAnswer path 0x02 0 [1, imageNat s s.vesper.slot 1 8 4, imageNat s s.vesper.slot 1 12 4, 2, recordSeq s s.vesper.cfgCopy] s
  else s)

/-- RequestUpdate begins an update. -/
def execRequestUpdate (path : Path) (s : State) : Host.Outcome State Fault Refusal :=
  .next (fwIn path 0x10 [0] (fun s =>
    fwAnswer path 0x10 0 [] (modVesper (fun v => { v with updState := 1, updComp := 0, updDone := 0, updWritten := [] }) s)) s)

/-- PassComponentTable refuses a bundle below the SVN floor. -/
def execPassComponentTable (path : Path) (comp svn : Nat) (s : State) : Host.Outcome State Fault Refusal :=
  .next (fwIn path 0x13 [1, 2] (fun s =>
    if comp = 1 ∧ svn < s.vesper.floor ∨ (comp ≠ 1 ∧ comp ≠ 2) then fwAnswer path 0x13 1 [comp] s
    else fwAnswer path 0x13 0 [comp] (setUpd 2 s)) s)

/-- UpdateComponent starts writing a component that fits its area. -/
def execUpdateComponent (path : Path) (k : CompChoice) (size : Nat) (s : State) : Host.Outcome State Fault Refusal :=
  .next (fwIn path 0x14 [2] (fun s =>
    if (k.comp ≠ 1 ∧ k.comp ≠ 2) ∨ compMax k.comp < size then fwAnswer path 0x14 1 [k.comp] s
    else fwAnswer path 0x14 0 [k.comp] (modVesper (fun v =>
      { v with updState := 3, updComp := k.comp, updSlot := compSlot s k.comp k.slotB, updDone := 0, updSize := size, updOk := false }) s))
    s)

/-- Requested data arrives, at most 1,024 bytes and no more than the component has left, and is written. -/
def execRequestFirmwareData (path : Path) (data : List Byte) (s : State) : Host.Outcome State Fault Refusal :=
  .next (fwIn path 0x15 [3] (fun s =>
    let v := s.vesper
    let bs := data.take (min 1024 (v.updSize - v.updDone))
    modVesper (fun v => { v with updDone := v.updDone + bs.length }) (programFlash (compAt s + v.updDone) bs s)) s)

/-- TransferComplete, once every byte has been received. -/
def execTransferComplete (path : Path) (s : State) : Host.Outcome State Fault Refusal :=
  .next (fwIn path 0x16 [3] (fun s =>
    if s.vesper.updDone = s.vesper.updSize then fwAnswer path 0x16 0 [] (setUpd 4 s) else s) s)

/-- VerifyComplete: what was written passes, or a verify failure is reported. -/
def execVerifyComplete (path : Path) (s : State) : Host.Outcome State Fault Refusal :=
  .next (fwIn path 0x17 [4] (fun s =>
    let x := checkComp s
    if x.1 then fwAnswer path 0x17 0 [] (modVesper (fun v => { v with updState := 5, updOk := true }) x.2)
    else fwAnswer path 0x17 1 [] (setUpd 2 x.2)) s)

/-- ApplyComplete. -/
def execApplyComplete (path : Path) (s : State) : Host.Outcome State Fault Refusal :=
  .next (fwIn path 0x18 [5] (fun s => fwAnswer path 0x18 0 [] (applyComp s)) s)

/-- ActivateFirmware: the bundle's slot becomes preferred, under trial; self-contained activation is not offered, and with nothing
written there is nothing to activate. -/
def execActivateFirmware (path : Path) (selfContained : Bool) (s : State) : Host.Outcome State Fault Refusal :=
  .next (fwIn path 0x1A [2] (fun s =>
    let done := s.vesper.updWritten
    if selfContained ∨ done = [] then fwAnswer path 0x1A 1 [] s
    else
      let s := modVesper (fun v => { v with updState := 0, updWritten := [] }) s
      let s := if done.contains 1 then
          logFwupd 1 (modBoot (fun v => { v with prefSlot := v.updBundle, trialFlag := true }) s)
        else logFwupd 2 s
      fwAnswer path 0x1A 0 [] s) s)

/-- GetStatus. -/
def execPldmGetStatus (path : Path) (s : State) : Host.Outcome State Fault Refusal :=
  .next (if mctpServes s path then fwAnswer path 0x1B 0 [s.vesper.updState, s.vesper.updDone] s else s)

/-- CancelUpdateComponent: the component is abandoned and stays incomplete. -/
def execCancelUpdateComponent (path : Path) (s : State) : Host.Outcome State Fault Refusal :=
  .next (fwIn path 0x1C [3, 4, 5] (fun s => fwAnswer path 0x1C 0 [] (setUpd 2 s)) s)

/-- CancelUpdate: the update is abandoned. -/
def execCancelUpdate (path : Path) (s : State) : Host.Outcome State Fault Refusal :=
  .next (fwIn path 0x1D [1, 2, 3, 4, 5] (fun s =>
    fwAnswer path 0x1D 0 [] (modVesper (fun v => { v with updState := 0, updWritten := [] }) s)) s)

end Sys2Proof.Machine
end

