-- ==== Sys2Proof/Machine/MatrixOps.lean ====
section
/-! DEFINITION. The matrix commands and the cube array: loads (R96 to R104), streams (R105 to R111, R122 to R125), group
commands (R64 to R66, R190, R191), with their take conditions (R192) and checks (R201). -/
namespace Sys2Proof.Machine

/-- A core's array changed. -/
def modArray (f : Array → Array) (k : Core) : Core := { k with array := f k.array }

/-- OPSKIP of the array page with a cause (R115). -/
def logArraySkip (c : CoreId) (e : QEntry) (cause : Nat) (s : State) : State :=
  logEvent (coreP c 3) 0 [e.idx + cause * 2 ^ 8] s

/-- A bank, and the array with a bank changed. -/
def bankOf (a : Array) (b : Nat) : Bank := if b = 0 then a.bank0 else a.bank1
def modBank (b : Nat) (f : Bank → Bank) (a : Array) : Array :=
  if b = 0 then { a with bank0 := f a.bank0 } else { a with bank1 := f a.bank1 }

/-- Bank depth by mantissa bits (R96). -/
def bankDepth (bits : Nat) : Nat := if bits = 4 then 1024 else if bits = 8 then 512 else 256

/-- Depth positions per core cycle (R96). -/
def depthRate (na nb : Nat) : Nat := if na = 16 ∨ nb = 16 then 2 else if na = 4 ∧ nb = 4 then 16 else 8

/-- The source region fits and the offsets keep R189. -/
def sourceOk (r : TReg) (u0 v0 : Nat) : Bool :=
  r.fits && decide (u0 < r.u ∧ v0 < r.v) && (if r.ax then u0 % 32 == 0 && v0 % 8 == 0 else v0 % 32 == 0 && u0 % 8 == 0)

/-- The panel or stream sizes of R101 and R110: a multiple of unit from unit to most. -/
def sizeOk (unit most n : Nat) : Bool := n % unit == 0 && decide (unit ≤ n ∧ n ≤ most)

/-! ### NOP and reserved codes -/

/-- Matrix NOP: taken, and complete (R187). -/
def execMatrixNop (c : CoreId) (s : State) : Host.Outcome State Fault Refusal :=
  .next (takeWhen c .matrix (opIs 0) (completeNow c .matrix) s)

/-- A reserved matrix OP (R187, R201). -/
def execMatrixReservedOp (c : CoreId) (s : State) : Host.Outcome State Fault Refusal :=
  .next (takeWhen c .matrix (fun e => decide (5 < cmdOp e.word)) (logBadop c .matrix) s)

/-! ### LOAD -/

/-- The write of a cube row is held (R103): the row reads the bank, or a stream taken before the load is still to move the row to
the bank, and so the flip marker that moves it off again has not passed it. -/
def rowHeld (a : Array) (j : LoadJob) (row : Nat) : Bool :=
  let earlier := fun (x : StreamJob) => x.bank == j.bank && decide (x.flight.seq < j.flight.seq)
  mfind a.rowBank row == some j.bank ||
    a.streams.any (fun x => earlier x && x.entered == 0) ||
    a.words.any (fun w => w.pos == 0 && decide (w.row ≤ row) && w.job.any earlier)

/-- The loader holds no load that it has accepted and not begun (R192). A load begins when it heads the loader and its first
cube row is not held. -/
def loaderFree (a : Array) : Bool :=
  match a.loads with
  | [] => true
  | [j] => decide (0 < j.rows) || !rowHeld a j 0
  | _ => false

/-- A LOAD that passed its checks: accepted for the bank the pointer does not name (R102, R104). -/
def acceptLoad (c : CoreId) (e : QEntry) (s : State) : State :=
  let a := (s.core c).array
  let w := e.word
  let t := cmdBits w 39 32
  let r := treg s c t
  let across := cmdBits w 40 40 == 1
  let b := 1 - a.pointer
  let n := a.loadSeq + 1
  let fl := flightOf .matrix e
  let m := cmdBits w 49 41
  let d := cmdBits w 60 50
  let job : LoadJob :=
    { flight := fl, bank := b, loadSeq := n, tileReg := t, across := across, m := m, d := d, u0 := cmdBits w 83 64,
      v0 := cmdBits w 115 96, treg := trWords s c t, tag := mfind e.rcap t, rows := 0 }
  let upd := fun (x : Bank) =>
    { x with issued := n, m := m, d := d, bits := blockBits r.fmt, depthBlocked := r.ax == across }
  addFlight c fl
    (modCore c (modArray (fun a => modBank b upd { a with loadSeq := n, loads := a.loads ++ [job] })) s)

/-- The checks of a LOAD (R201 checks 2 to 4). -/
def takeLoad (c : CoreId) (e : QEntry) (s : State) : State :=
  let w := e.word
  let r := treg s c (cmdBits w 39 32)
  if !r.blocks then logArraySkip c e 1 s
  else if !(sizeOk 8 256 (cmdBits w 49 41) && sizeOk 32 (bankDepth (blockBits r.fmt)) (cmdBits w 60 50)) then
    logArraySkip c e 2 s
  else if !sourceOk r (cmdBits w 83 64) (cmdBits w 115 96) then logArraySkip c e 3 s
  else acceptLoad c e s

/-- LOAD (R100, R188, R192). -/
def execLoad (c : CoreId) (s : State) : Host.Outcome State Fault Refusal :=
  .next (takeWhen c .matrix (fun e => opIs 1 e && loaderFree (s.core c).array) (takeLoad c) s)

/-- The source positions of a load's cube row: output row, depth position, row and column of the source (R100, R189). -/
def loadSpots (j : LoadJob) (row : Nat) : List (Nat × Nat × Nat × Nat) :=
  (List.range 8).flatMap fun i =>
    (List.range j.d).map fun p =>
      let o := 8 * row + i
      if j.across then (o, p, j.u0 + p, j.v0 + o) else (o, p, j.u0 + o, j.v0 + p)

/-- The spots that lie within the source's rows and columns (R189). -/
def insideSpots (r : TReg) (l : List (Nat × Nat × Nat × Nat)) : List (Nat × Nat × Nat × Nat) :=
  l.filter (fun x => decide (x.2.2.1 < r.u ∧ x.2.2.2 < r.v))

/-- One cube row of a load written: its elements, its sequence number, and the bytes counted (R100, R104, R114). -/
def writeBankRow (c : CoreId) (j : LoadJob) (row : Nat) (s : State) : State :=
  let r := tregOf j.treg
  let put := fun (m : Map Elem) (x : Nat × Nat × Nat × Nat) =>
    let e := blockElem s c r x.2.2.1 x.2.2.2
    if e.m = 0 then m else mset m (x.1 * 1024 + x.2.1) e
  let upd := fun (b : Bank) =>
    { b with
      elems := (insideSpots r (loadSpots j row)).foldl put (dropRange (8 * row * 1024) (8 * (row + 1) * 1024) b.elems)
      rowSeq := mset b.rowSeq row j.loadSeq, loaded := (row + 1) * 8 == j.m }
  bumpPair (coreP c 3) 0x120 (j.d * blockBits r.fmt) (modCore c (modArray (modBank j.bank upd)) s)

/-- The load at the head of the loader after one more row: its last row completes it (R187). -/
def advanceLoad (c : CoreId) (j : LoadJob) (s : State) : State :=
  let j' := { j with rows := j.rows + 1 }
  if j'.rows * 8 = j.m then
    completeFlight c j.flight 1 (modCore c (modArray (fun a => { a with loads := a.loads.tail })) s)
  else modCore c (modArray (fun a => { a with loads := j' :: a.loads.tail })) s

/-- The loader writes its next cube row unless the row is held (R103), its tags differ (R213) or its source is poisoned
(R413). (DEDUCED, log entry 41.) -/
def loadRow (c : CoreId) (s : State) : State :=
  let k := s.core c
  match k.array.loads with
  | [] => s
  | j :: _ =>
    if rowHeld k.array j j.rows then s
    else
      let r := tregOf j.treg
      let spots := insideSpots r (loadSpots j j.rows)
      if !linesOk k j.tileReg j.tag (spots.map (fun x => r.lineOf x.2.2.1 x.2.2.2)) then
        (if k.guarded then s else scheduleFault c 1 0 j.flight.idx j.tileReg s)
      else
        match firstPoison s (spots.flatMap (fun x => elemBytes c r x.2.2.1 x.2.2.2)) with
        | some a => consumeTask c a s
        | none => advanceLoad c j (writeBankRow c j j.rows s)

/-- The loader writes rows until it has written row upTo of the load it began with, at most n. -/
def loadRows (c : CoreId) (fl : Flight) (upTo : Nat) : Nat → State → State
  | 0, s => s
  | n + 1, s =>
    match (s.core c).array.loads with
    | [] => s
    | j :: _ => if j.flight = fl ∧ j.rows ≤ upTo then loadRows c fl upTo n (loadRow c s) else s

/-- The loader writes cube rows in ascending order up to the row named; the last row of the load completes it (R103,
R187). -/
def execLoadComplete (c : CoreId) (row : Fin 32) (s : State) : Host.Outcome State Fault Refusal :=
  match (s.core c).array.loads with
  | [] => .next s
  | j :: _ => .next (loadRows c j.flight row.val 32 s)

/-! ### STREAM -/

/-- The mask bytes a mask mode needs (R124), and the masks read at the take (R122, R123). A block-format register whose 132 bytes run
past the end of its space reads the bytes that lie beyond it (DESIGN CHOICE, log entry 112). -/
def maskBytes (mode : Nat) : Nat := if mode = 0 then 0 else if mode = 1 then 4 else 132
def rowMaskOf (s : State) (a mode : Nat) : Nat := if bitOf mode 0 then loadN s a 4 else 2 ^ 32 - 1
def blockMaskOf (s : State) (a mode : Nat) : Nat := if bitOf mode 1 then loadN s (a + 4) 128 else 2 ^ 1024 - 1

/-- The mask bytes that a mode reads: the row mask, the block mask, or both (R123). -/
def maskSpan (mode : Nat) : Nat × Nat := if mode = 1 then (0, 4) else if mode = 2 then (4, 132) else (0, 132)

/-- Bytes [a, a + n) meet the bytes [lo, hi). -/
def meets (a n lo hi : Nat) : Bool := decide (a < hi ∧ lo < a + n)

/-- The lines of the mask region whose elements hold the bytes that a mode reads (R211, R212). -/
def maskLines (r : TReg) (mode : Nat) : List Nat :=
  let lo := 64 * r.base + (maskSpan mode).1
  let hi := 64 * r.base + (maskSpan mode).2
  if r.blocks then
    (List.range r.lines).filter (fun a => (List.range r.perLine).any (fun b => meets (r.mantOff a b) r.blockBytes lo hi))
  else (List.range r.u).filter (fun u => meets (r.elemOff u 0) (r.v * r.width) lo hi)

/-- Accumulation steps of a stream (R98). -/
def streamSteps (segment : Bool) (d : Nat) : Nat := if segment then d / 32 else d

/-- The step limit of a mode (R56). -/
def stepLimit (mode : Nat) : Nat := if mode = 0 then 2 ^ 24 else 2 ^ 20

/-- The stream sequencer holds no stream whose first word has not entered (R192). -/
def streamFree (a : Array) : Bool := a.streams.all (fun j => decide (0 < j.entered))

/-- A STREAM that passed its checks (R102, R106, R107, R123). Of a bank with no LOAD in the task, which fails at row 0 (R193), the
rate and step count take 8-bit mantissas and no depth blocks (DESIGN CHOICE, log entry 87). Marker words that wait while no
stream has words left enter before it (R106, R191). A mask register in slice memory, which no check refuses, has its masks read
there (DESIGN CHOICE, log entry 113). -/
def acceptStream (c : CoreId) (e : QEntry) (s : State) : State :=
  let k := s.core c
  let a := k.array
  let w := e.word
  let t := cmdBits w 39 32
  let r := treg s c t
  let flip := cmdBits w 52 52 == 1
  let b := if flip then 1 - a.pointer else a.pointer
  let bank := bankOf a b
  let g := cmdBits w 51 50
  let mode := cmdBits w 49 48
  let m := treg s c (cmdBits w 47 40)
  let ma := spaceBase c m.space + 64 * m.base
  let segment := bank.depthBlocked && r.ax
  let d := cmdBits w 94 84
  let q := depthRate (if bank.issued = 0 then 8 else bank.bits) (blockBits r.fmt)
  let fl := flightOf .matrix e
  let job : StreamJob :=
    { flight := fl, group := g, bank := b, flip := if flip then some bank.issued else none, tileReg := t,
      treg := trWords s c t, n := cmdBits w 61 53, d := d, m := bank.m, sbits := bank.bits, u0 := cmdBits w 83 64,
      v0 := cmdBits w 115 96, q := q, segment := segment, bits := blockBits r.fmt, rowMask := rowMaskOf s ma mode,
      blockMask := blockMaskOf s ma mode, tag := mfind e.rcap t, words := d / q, entered := 0,
      stepBase := (groupOf k g).planned, opens := a.pendingOpens, closes := [],
      before := if a.streams.isEmpty then a.markerWords.length else 0 }
  let s := modCore c (modArray (fun a => { a with pointer := b, pendingOpens := [], streams := a.streams ++ [job] })) s
  addFlight c fl (modCore c (modGroup g (fun x => { x with planned := x.planned + streamSteps segment d })) s)

/-- The step limit of a group (R56, R71): the command that meets it logs STEPLIMIT, later ones SKIP. -/
def meetLimit (c : CoreId) (e : QEntry) (g : Nat) (s : State) : State :=
  if (groupOf (s.core c) g).limited then logGroupSkip c e s
  else logEvent (coreP c 4) 5 [] (modCore c (modGroup g (fun x => { x with limited := true })) s)

/-- The mask's tags and marks, then the stream itself. In guarded replay a mask whose tag differs keeps the command waiting
(R215): see the take condition. -/
def readMask (c : CoreId) (e : QEntry) (s : State) : State :=
  let k := s.core c
  let w := e.word
  let t := cmdBits w 47 40
  let mode := cmdBits w 49 48
  let m := treg s c t
  if mode = 0 then acceptStream c e s
  else if !linesOk k t (mfind e.rcap t) (maskLines m mode) then scheduleFault c 1 0 e.idx t s
  else
    let a := spaceBase c m.space + 64 * m.base
    let span := maskSpan mode
    if poisoned s (a + span.1) (span.2 - span.1) then consumeTask c (a + span.1) s else acceptStream c e s

/-- The checks of a STREAM (R201 checks 2 to 6). -/
def takeStream (c : CoreId) (e : QEntry) (s : State) : State :=
  let k := s.core c
  let w := e.word
  let r := treg s c (cmdBits w 39 32)
  let d := cmdBits w 94 84
  let g := cmdBits w 51 50
  let mode := cmdBits w 49 48
  let bank := bankOf k.array (if cmdBits w 52 52 = 1 then 1 - k.array.pointer else k.array.pointer)
  let x := groupOf k g
  if !r.blocks then logArraySkip c e 1 s
  else if !(sizeOk 8 256 (cmdBits w 61 53) && sizeOk 32 1024 d) then logArraySkip c e 2 s
  else if !sourceOk r (cmdBits w 83 64) (cmdBits w 115 96) ||
      (mode != 0 && !(treg s c (cmdBits w 47 40)).covers (maskBytes mode)) then logArraySkip c e 3 s
  else if bank.issued ≠ 0 ∧ bank.d ≠ d then logArraySkip c e 4 s
  else if x.state ≠ 1 then logGroupSkip c e s
  else if x.limited ∨ stepLimit x.mode < x.planned + streamSteps (bank.depthBlocked && r.ax) d then meetLimit c e g s
  else readMask c e s

/-- A STREAM that no check of R201 stops. -/
def streamOk (s : State) (c : CoreId) (e : QEntry) : Bool :=
  let k := s.core c
  let w := e.word
  let r := treg s c (cmdBits w 39 32)
  let d := cmdBits w 94 84
  let mode := cmdBits w 49 48
  let bank := bankOf k.array (if cmdBits w 52 52 = 1 then 1 - k.array.pointer else k.array.pointer)
  let x := groupOf k (cmdBits w 51 50)
  r.blocks && sizeOk 8 256 (cmdBits w 61 53) && sizeOk 32 1024 d && sourceOk r (cmdBits w 83 64) (cmdBits w 115 96) &&
    (mode == 0 || (treg s c (cmdBits w 47 40)).covers (maskBytes mode)) && !(bank.issued != 0 && bank.d != d) &&
    x.state == 1 && !x.limited && decide (x.planned + streamSteps (bank.depthBlocked && r.ax) d ≤ stepLimit x.mode)

/-- In guarded replay a stream that no check stops and whose mask lines do not carry the captured tag waits (R213, R215). -/
def maskWaits (s : State) (c : CoreId) (e : QEntry) : Bool :=
  let k := s.core c
  let mode := cmdBits e.word 49 48
  let t := cmdBits e.word 47 40
  k.guarded && mode != 0 && streamOk s c e && !linesOk k t (mfind e.rcap t) (maskLines (treg s c t) mode)

/-- STREAM (R102, R106, R192). -/
def execStream (c : CoreId) (s : State) : Host.Outcome State Fault Refusal :=
  .next (takeWhen c .matrix (fun e => opIs 2 e && streamFree (s.core c).array && !maskWaits s c e) (takeStream c) s)

/-! ### Words -/

/-- The source positions of a word: depth offset, output column, row and column of the source, within its extent (R189). -/
def wordSpots (j : StreamJob) (r : TReg) (pos : Nat) : List (Nat × Nat × Nat × Nat) :=
  insideSpots r ((List.range j.q).flatMap fun d =>
    (List.range j.n).map fun col => (d, col, j.u0 + pos + d, j.v0 + col))

/-- The operands of a word. -/
def wordElems (s : State) (c : CoreId) (r : TReg) (spots : List (Nat × Nat × Nat × Nat)) : Map Elem :=
  spots.foldl (fun m x =>
    let e := blockElem s c r x.2.2.1 x.2.2.2
    if e.m = 0 then m else mset m (x.1 * 256 + x.2.1) e) []

/-- Accumulation steps that a word ends (R53, R98). -/
def wordSteps (j : StreamJob) (pos : Nat) : Nat :=
  if j.segment then (if (pos + j.q) % 32 = 0 then 1 else 0) else j.q

/-- A stream-buffer slot filled for a word: its operands, whether the tags of the lines it was filled from match, and the first
poisoned byte (R109, R213). -/
def fillSlot (s : State) (c : CoreId) (j : StreamJob) (pos : Nat) : Map Elem × Bool × Option Nat :=
  let r := tregOf j.treg
  let spots := wordSpots j r pos
  (wordElems s c r spots, linesOk (s.core c) j.tileReg j.tag (spots.map (fun x => r.lineOf x.2.2.1 x.2.2.2)),
    firstPoison s (spots.flatMap (fun x => elemBytes c r x.2.2.1 x.2.2.2)))

/-- A stream's next word enters, from the slot filled for it, to stand before cube row 0 (R105, R107). -/
def enterWord (c : CoreId) (j : StreamJob) (s : State) : State :=
  let last := j.entered + 1 == j.words
  let pos := j.entered * j.q
  let slot := fillSlot s c j pos
  let word : SWord :=
    { job := some { j with entered := j.entered + 1 }, pos := pos, last := last, opens := if pos = 0 then j.opens else [],
      closes := if last then j.closes else [], elems := slot.1, tagOk := slot.2.1, bad := slot.2.2, row := 0, colSums := [],
      allSum := [] }
  let upd := fun (a : Array) =>
    { a with
      words := a.words ++ [word]
      streams := if last then a.streams.filter (fun x => decide (x.flight ≠ j.flight))
        else a.streams.map (fun x => if x.flight = j.flight then { x with entered := j.entered + 1 } else x) }
  let s := modCore c (modArray upd) s
  bumpPair (coreP c 3) 0x108 1 (modCore c (modGroup j.group (fun x => { x with steps := x.steps + wordSteps j pos })) s)

/-- A marker word enters cube row 0 (R191). -/
def enterMarker (c : CoreId) (g : Nat) (s : State) : State :=
  let word : SWord :=
    { job := none, pos := 0, last := true, opens := [g], closes := [g], elems := [], tagOk := true, bad := none, row := 0,
      colSums := [], allSum := [] }
  let upd := fun (a : Array) =>
    { a with
      words := a.words ++ [word], markerWords := a.markerWords.tail
      streams := a.streams.map (fun x => { x with before := x.before - 1 }) }
  bumpPair (coreP c 3) 0x108 1 (modCore c (modArray upd) s)

/-- A stream word enters (R106), or a marker word when it precedes the next stream's words or no stream has any (R191). The slot
of the stream buffer is filled when its word enters, and the array takes the word at cube row 0 (DESIGN CHOICE, log entry 88). -/
def execStreamWordEntry (c : CoreId) (s : State) : Host.Outcome State Fault Refusal :=
  let k := s.core c
  let stream := k.array.streams.head?.filter (fun j => j.before == 0)
  if !k.live then .next s
  else
    match stream, k.array.markerWords with
    | some j, _ => .next (enterWord c j s)
    | none, g :: _ => .next (enterMarker c g s)
    | none, [] => .next s

/-- A compute cube is neither idle nor masked for a stream (R110, R122). -/
def cubeOn (j : StreamJob) (row col : Nat) : Bool :=
  decide (8 * row < j.m ∧ 8 * col < j.n) && bitOf j.rowMask row && bitOf j.blockMask (32 * row + col)

/-- Columns of a cube row that are enabled. -/
def onColumns (j : StreamJob) (row : Nat) : List Nat := (List.range j.n).filter (fun col => cubeOn j row (col / 8))

/-- A bank row passes the check of a stream's first word (R104). -/
def bankRowOk (a : Array) (j : StreamJob) (row : Nat) : Bool :=
  if row = 0 ∨ 8 * row < j.m then
    let n := mget 0 (bankOf a j.bank).rowSeq row
    match j.flip with
    | some f => n == f && f != 0
    | none => n != 0
  else true

/-- BANKFAULT and its schedule fault, with one core-cycle offset (R104, R115, R214). -/
def bankFault (c : CoreId) (j : StreamJob) (row : Nat) (s : State) : State :=
  scheduleFault c 3 0 j.flight.idx 0
    (logEvent (coreP c 3) 1 [row + j.bank * 2 ^ 8, (freeOf s).toNat % 2 ^ 32] s)

/-- The sums of a step as a word gathers them: row lines of this cube row by depth offset × 256 + row, column lines, tile. -/
structure StepSums where
  rows : Map Dyad
  cols : Map Dyad
  all : Map Dyad

/-- A finished block product: its contribution to its cell (R54 to R61) and to the sums of its lines (R67). -/
def finishProduct (j : StreamJob) (step d i col : Nat) (b : Partial) (r : Core × StepSums) : Core × StepSums :=
  let v : Dyad := ⟨b.p, b.w⟩
  let add := fun (m : Map Dyad) (key : Nat) => mmod Dyad.zero m key (fun x => x.add v)
  let k := contribute j.group step i col b r.1
  if b.p = 0 then (k, r.2)
  else (k, { rows := add r.2.rows (d * 256 + i), cols := add r.2.cols (d * 256 + col), all := add r.2.all d })

/-- One cell takes the pairs of a word (R98): into its partial integer for a segment, or one product per depth position. -/
def cellWord (j : StreamJob) (w : SWord) (i col : Nat) (r : Core × StepSums) : Core × StepSums :=
  let bank := bankOf r.1.array j.bank
  let pair := fun (d : Nat) (x : Partial) =>
    addPair j.sbits j.bits (mget ⟨0, 0⟩ bank.elems (i * 1024 + w.pos + d)) (mget ⟨0, 0⟩ w.elems (d * 256 + col)) x
  if j.segment then
    let b := (List.range j.q).foldl (fun x d => pair d x) (mget Partial.empty r.1.array.partials (i * 256 + col))
    if (w.pos + j.q) % 32 = 0 then
      finishProduct j (j.stepBase + w.pos / 32) 0 i col b
        (modArray (fun a => { a with partials := mdel a.partials (i * 256 + col) }) r.1, r.2)
    else (modArray (fun a => { a with partials := mset a.partials (i * 256 + col) b }) r.1, r.2)
  else
    (List.range j.q).foldl (fun r d => finishProduct j (j.stepBase + w.pos + d) d i col (pair d Partial.empty) r) r

/-- Check contributions for each listed sum; key ↦ line (R67). -/
def checkAll (g : Nat) (line : Nat → Nat) (m : Map Dyad) (k : Core) : Core :=
  if (groupOf k g).checked then m.foldl (fun k p => checkContribute g (line p.1) p.2 k) k else k

/-- The core with the first word that stands before a row replaced. -/
def replaceWord (row : Nat) (w : SWord) : List SWord → List SWord
  | [] => []
  | x :: t => if x.row = row then w :: t else x :: replaceWord row w t

/-- A cube row multiplies and accumulates a word, and its check-column cube takes it (R53, R67, R105, R114). -/
def computeRow (c : CoreId) (row : Nat) (j : StreamJob) (w : SWord) (s : State) : State :=
  let cells := (List.range 8).flatMap (fun i => (onColumns j row).map (fun col => (8 * row + i, col)))
  let r := cells.foldl (fun r x => cellWord j w x.1 x.2 r) (s.core c, ⟨[], w.colSums, w.allSum⟩)
  let k := checkAll j.group (fun key => key % 256) r.2.rows r.1
  let w' := { w with row := row + 1, colSums := r.2.cols, allSum := r.2.all }
  let k := modArray (fun a => { a with words := replaceWord row w' a.words }) k
  bumpPair (coreP c 3) 0x110 ((onColumns j row).length / 8) (setCore c k s)

/-- A word passes a cube row and only moves on. -/
def passRow (c : CoreId) (row : Nat) (w : SWord) (s : State) : State :=
  modCore c (modArray (fun a => { a with words := replaceWord row { w with row := row + 1 } a.words })) s

/-- A word passes the bank check of its row (R104) and is computed; its first word's flip switches the row's bank. -/
def checkRowBank (c : CoreId) (row : Nat) (j : StreamJob) (w : SWord) (s : State) : State :=
  let k := s.core c
  if w.pos = 0 then
    if bankRowOk k.array j row then
      computeRow c row j w (modCore c (modArray (fun a => { a with rowBank := mset a.rowBank row j.bank })) s)
    else if k.guarded then s else bankFault c j row s
  else computeRow c row j w s

/-- The slot of a word as the array finds it: in guarded replay a slot with the wrong generation is filled afresh (R109, R213). -/
def slotTaken (s : State) (c : CoreId) (j : StreamJob) (w : SWord) : SWord :=
  if w.tagOk || !(s.core c).guarded then w
  else
    let slot := fillSlot s c j w.pos
    { w with elems := slot.1, tagOk := slot.2.1, bad := slot.2.2 }

/-- A stream's word at a compute row. Cube row 0 takes it from its slot: the wrong generation is a schedule fault, or waits in
guarded replay (R109, R213), and poison is consumed (R413). The tag is checked before the bank (DESIGN CHOICE, log entry 88). -/
def wordAtRow (c : CoreId) (row : Nat) (j : StreamJob) (w : SWord) (s : State) : State :=
  if row ≠ 0 then checkRowBank c row j w s
  else
    let w := slotTaken s c j w
    if !w.tagOk then (if (s.core c).guarded then s else scheduleFault c 2 0 j.flight.idx j.tileReg s)
    else match w.bad with
      | some a => consumeTask c a s
      | none => checkRowBank c 0 j w s

/-- The close markers of a word have left the array (R65). -/
def markersOut (gs : List Nat) (k : Core) : Core :=
  gs.foldl (fun k g => modGroup g (fun x => { x with markerOut := true }) k) k

/-- The check row and the corner take a word (R95, R105); a word that is not a stream's last, or is a marker word, is
gone. -/
def checkRowTakes (c : CoreId) (w : SWord) (s : State) : State :=
  let k := s.core c
  let k := match w.job with
    | some j => checkAll j.group (fun _ => 512) w.allSum (checkAll j.group (fun key => 256 + key % 256) w.colSums k)
    | none => k
  let k := markersOut w.closes k
  let stays := w.last && w.job.isSome
  let upd := fun (a : Array) =>
    if stays then { a with words := replaceWord 32 { w with row := 33, closes := [] } a.words }
    else { a with words := a.words.erase w }
  setCore c (modArray upd k) s

/-- A cube row, or the check row, takes the next word that stands before it (R105). -/
def execStreamWordRow (c : CoreId) (row : Fin 33) (s : State) : Host.Outcome State Fault Refusal :=
  let k := s.core c
  if !k.live then .next s
  else
    match k.array.words.find? (fun w => decide (w.row = row.val)) with
    | none => .next s
    | some w =>
      if row.val = 32 then .next (checkRowTakes c w s)
      else
        match w.job with
        | none => .next (passRow c row.val w s)
        | some j => .next (wordAtRow c row.val j w s)

/-- The corner cube has taken a stream's last word: the stream completes (R187). -/
def execStreamComplete (c : CoreId) (s : State) : Host.Outcome State Fault Refusal :=
  let k := s.core c
  match k.array.words.find? (fun w => decide (w.row = 33)) with
  | none => .next s
  | some w =>
    match w.job with
    | none => .next s
    | some j =>
      .next (completeFlight c j.flight 1 (modCore c (modArray (fun a => { a with words := a.words.erase w })) s))

/-! ### Group commands -/

/-- A group command in a state that R66 marks "schedule fault": it faults, or in guarded replay waits (R215). -/
def groupFaults (op st : Nat) : Bool :=
  (op == 3 && (st == 2 || st == 3)) || (op == 5 && st == 2)

/-- A group command waits in guarded replay for its state. -/
def groupWaits (k : Core) (e : QEntry) : Bool :=
  k.guarded && groupFaults (cmdOp e.word) (groupOf k (cmdBits e.word 33 32)).state &&
    !(cmdOp e.word == 3 && cmdBits e.word 35 34 == 3)

/-- A calibrated GOPEN whose slot is not OFF is taken when the slot's anchor for the task's step is in force (R192). -/
def gopenReady (s : State) (c : CoreId) (e : QEntry) : Bool :=
  let slot := cmdBits e.word 61 48
  cmdBits e.word 37 37 == 0 || calOff s slot || calInForce s slot (taskStep s c)

/-- The checks of a GOPEN and its effect (R63, R64, R66, R79, R190, R201 checks 6 and 7). -/
def takeGopen (c : CoreId) (e : QEntry) (s : State) : State :=
  let w := e.word
  let g := cmdBits w 33 32
  let mode := cmdBits w 35 34
  let cal := cmdBits w 37 37 == 1
  let slot := cmdBits w 61 48
  let st := (groupOf (s.core c) g).state
  if mode = 3 ∨ st = 1 then logGroupSkip c e s
  else if st ≠ 0 then scheduleFault c 4 0 e.idx 0 s
  else if cal && calOff s slot then logCalOff slot (taskStep s c) s
  else
    let anchor := if cal then calAnchor s slot (taskStep s c) else signedOf 10 (cmdBits w 47 38)
    let k := openGroup g mode (cmdBits w 36 36 == 1) anchor (if cal then some (slot, taskStep s c) else none) (s.core c)
    completeNow c .matrix e
      (setCore c (modArray (fun a => { a with pendingOpens := a.pendingOpens ++ [g] }) k) (freshCells c g s))

/-- GOPEN (R64, R190, R192). -/
def execGopen (c : CoreId) (s : State) : Host.Outcome State Fault Refusal :=
  .next (takeWhen c .matrix (fun e => opIs 3 e && gopenReady s c e && !groupWaits (s.core c) e) (takeGopen c) s)

/-- The last element of a list changed. -/
def modLast {α : Type} (f : α → α) : List α → List α
  | [] => []
  | [a] => [f a]
  | a :: t => a :: modLast f t

/-- A close marker rides the last word taken before it (R107, R190): a stream still entering, a word in the array, or, when
that word has left, nothing more to wait for; a group whose open marker is still pending takes a marker word (R191). -/
def placeClose (g : Nat) (k : Core) : Core :=
  let a := k.array
  if a.pendingOpens.contains g then
    modArray (fun a => { a with pendingOpens := a.pendingOpens.erase g, markerWords := a.markerWords ++ [g] }) k
  else if !a.streams.isEmpty then
    modArray (fun a => { a with streams := modLast (fun j => { j with closes := j.closes ++ [g] }) a.streams }) k
  else if a.words.any (fun w => decide (w.row ≤ 32)) then
    modArray (fun a => { a with words := modLast (fun w => { w with closes := w.closes ++ [g] }) a.words }) k
  else markersOut [g] k

/-- The effect of a GCLOSE (R66, R190). -/
def takeGclose (c : CoreId) (e : QEntry) (s : State) : State :=
  let g := cmdBits e.word 33 32
  if (groupOf (s.core c) g).state ≠ 1 then logGroupSkip c e s
  else
    let fl := flightOf .matrix e
    let close := fun (x : Group) => { x with state := 2, closer := some fl, markerOut := false }
    addFlight c fl (modCore c (fun k => placeClose g (modGroup g close k)) s)

/-- GCLOSE (R190, R191). -/
def execGclose (c : CoreId) (s : State) : Host.Outcome State Fault Refusal :=
  .next (takeWhen c .matrix (opIs 4) (takeGclose c) s)

/-- The close marker has left the array: the checks are evaluated and the group becomes CLOSED (R65). -/
def execGroupClosed (c : CoreId) (g : Fin 4) (s : State) : Host.Outcome State Fault Refusal :=
  let x := groupOf (s.core c) g.val
  if x.state = 2 ∧ x.markerOut = true then .next (closeGroup c g.val s) else .next s

/-- The effect of a GREL (R66): the group becomes FREE, its close record kept. -/
def takeGrel (c : CoreId) (e : QEntry) (s : State) : State :=
  let g := cmdBits e.word 33 32
  let st := (groupOf (s.core c) g).state
  if st = 3 then completeNow c .matrix e (modCore c (modGroup g (fun x => { x with state := 0 })) s)
  else if st = 2 then scheduleFault c 4 0 e.idx 0 s
  else logGroupSkip c e s

/-- GREL (R66, R190). -/
def execGrel (c : CoreId) (s : State) : Host.Outcome State Fault Refusal :=
  .next (takeWhen c .matrix (fun e => opIs 5 e && !groupWaits (s.core c) e) (takeGrel c) s)

end Sys2Proof.Machine
end

