-- ==== Sys2Proof/Machine/Memory.lean ====
section
/-! DEFINITION. The memory page's requests (R249 to R253, R259) and the migration engine's own acts (R240 to R243, R250, R251,
R257), with errors of the memories (R409, R410) and scrubs. -/
namespace Sys2Proof.Machine

/-! ### Requests (R259) -/

/-- A request as the requester's registers describe it. -/
structure MemCmd where
  first : Nat
  count : Nat
  ctx : Nat
  pin : Bool
  place : Nat
  sig : Option Nat
  deriving DecidableEq, Repr

/-- The requester's registers MEM_REQPAGE to MEM_REQSOBJ. -/
def memCmdOf (s : State) (r : Req) : MemCmd :=
  let b := reqBank r
  let attr := rawWord s b memPage 0x138
  { first := fieldOf s b memPage 0x130 20 0, count := fieldOf s b memPage 0x134 20 0, ctx := bitsOf attr 13 0,
    pin := bitOf attr 16, place := bitsOf attr 18 17,
    sig := if bitOf attr 19 then some (fieldOf s b memPage 0x13C 16 0) else none }

/-- The pages of a request. -/
def MemCmd.pages (m : MemCmd) : List Nat := (List.range m.count).map (m.first + ·)

/-- MEM_STATUS of a requester: STATUS and DONEPAGES. -/
def setMemStatus (r : Req) (st done : Nat) (s : State) : State := setWord (reqBank r) memPage 0x144 (st + done * 2 ^ 8) s

/-- The requester's request is in progress. -/
def memBusy (s : State) (r : Req) : Bool := fieldOf s (reqBank r) memPage 0x144 3 0 == 1

/-- MEMSKIP (R261). -/
def logMemskip (cause : Nat) (r : Req) (s : State) : State := logEvent memPage 7 [cause + whoReq r * 2 ^ 8] s

/-- The add of a request's object (R259). -/
def memSignal (sig : Option Nat) (n : Nat) (s : State) : State :=
  match sig with
  | none => s
  | some o => objAdd o (BitVec.ofNat 64 n) s

/-- The owner of a page, 0 when it is unallocated (R261). -/
def ownerOf (s : State) (p : Nat) : Nat := ((s.mpage p).map (·.ctx)).getD 0

/-- The owners of a request's pages, each once. -/
def ownersOf (s : State) (m : MemCmd) : List Nat := m.pages.foldl (fun l p => kins l (ownerOf s p)) []

/-- Pinning n more pages of a context would exceed its Q: PINLIMIT (R252). -/
def pinLimited (s : State) (ctx n : Nat) : Bool := decide (quotaOf s ctx < pinnedOf s ctx + n)

/-- Pinning n more pages would exceed the frames in service less the high mark in force: PINPOOL (R251, R252). -/
def pinPooled (s : State) (n : Nat) : Bool := decide (framesIn s - highMark s < countPages s (·.pinned) + n)

/-- The first check of R249, then R252, that an ALLOC fails. -/
def allocRefusal (s : State) (m : MemCmd) : Option Nat :=
  if overQuota s m.ctx then some 3
  else if limitOf s m.ctx < allocOf s m.ctx + m.count then some 9
  else if poolOf s < s.mig.pages.length + m.count then some 4
  else if m.pin ∧ pinLimited s m.ctx m.count then some 6
  else if m.pin ∧ pinPooled s m.count then some 10
  else none

/-- The check of R252 and R253 that a PIN fails: a context marked OVERQ, PINLIMIT of any owner by its own pages, PINPOOL of the
whole request (DEDUCED, log entry 21). -/
def pinCmdRefusal (s : State) (m : MemCmd) : Option Nat :=
  let owners := ownersOf s m
  if owners.any (overQuota s) then some 3
  else if owners.any (fun o => pinLimited s o (m.pages.countP (fun p => decide (ownerOf s p = o)))) then some 6
  else if pinPooled s m.count then some 10
  else none

/-- The condition of the STATE column. -/
def stateRefusal (s : State) (op : Nat) (m : MemCmd) : Bool :=
  if op = 1 then m.pages.any (allocated s)
  else m.pages.any (fun p => !allocated s p || (op == 6 && ((s.mpage p).map (·.pinned)).getD false))

/-- The status with which a request is refused by checks 6 to 9 of R259. -/
def lateRefusal (s : State) (r : Req) (op : Nat) (m : MemCmd) : Option Nat :=
  if stateRefusal s op m then some 5
  else if op ≠ 1 ∧ !((ownersOf s m).all (memQualifies s r)) then some 7
  else if op = 1 then allocRefusal s m
  else if op = 3 then pinCmdRefusal s m
  else none

/-- A refusal: its status, and ALLOCREF for an ALLOC or PIN (R261). -/
def refuseMem (r : Req) (op : Nat) (m : MemCmd) (st : Nat) (s : State) : State :=
  let s := setMemStatus r st 0 s
  if op = 1 then logEvent memPage 0 [st + m.ctx * 2 ^ 16, m.first] s
  else if op = 3 then logEvent memPage 0 [st + ownerOf s m.first * 2 ^ 16, m.first] s
  else s

/-- A request that completes when it is taken. -/
def doneMem (r : Req) (m : MemCmd) (s : State) : State := memSignal m.sig m.count (setMemStatus r 2 m.count s)

/-- A request in progress: its pages are completed by MEM_REQUEST_DONE. -/
def startMem (r : Req) (op : Nat) (m : MemCmd) (s : State) : State :=
  let q : MemReq := { op := op, left := m.pages, count := m.count, sig := m.sig, done := 0 }
  modMig (fun g => { g with requests := mset g.requests (reqCode r) q }) (setMemStatus r 1 0 s)

/-- Pages put under migration; a write-back leaves a background fetch to go on after it (R242, R243). -/
def moveAll (code : Nat) (ps : List Nat) (s : State) : State :=
  forAll (fun p s => modPage p (fun x =>
    if x.frame.isSome ∧ x.moving ≤ 1 then { x with moving := if code = 3 ∧ x.moving = 1 then 5 else code } else x) s) ps s

/-- What an accepted request does. -/
def acceptMem (r : Req) (op : Nat) (m : MemCmd) (s : State) : State :=
  if op = 1 then
    let s := forAll (allocPage m.ctx m.place) m.pages s
    doneMem r m (if m.pin then forAll allocPinned m.pages s else s)
  else if op = 4 then
    let owners := ownersOf s m
    let s := forAll (modPage · (fun x => { x with pinned := false, wantsFrame := false })) m.pages s
    doneMem r m (forAll judgeQuota owners s)
  else if op = 8 then doneMem r m (forAll (modPage · (fun x => { x with place := m.place })) m.pages s)
  else if op = 6 then startMem r op m (moveAll 2 m.pages s)
  else if op = 7 then startMem r op m (moveAll 3 m.pages s)
  else startMem r op m s

/-- A write of MEM_CMD with an OP (R259): the checks in their order. The reserved PLACE of R257, which R259 does not list, is
skipped with the reserved OP (DESIGN CHOICE, log entry 103). -/
def memCommand (r : Req) (op : Nat) (s : State) : State :=
  let m := memCmdOf s r
  if memBusy s r then logMemskip 2 r s
  else if op = 0 ∨ 8 < op ∨ (m.place = 3 ∧ (op = 1 ∨ op = 8)) then logMemskip 1 r s
  else if 0 < m.count ∧ 1572864 < m.first + m.count then refuseMem r op m 8 s
  else if op = 1 ∧ !memQualifies s r m.ctx then refuseMem r op m 7 s
  else if m.count = 0 then doneMem r m s
  else match lateRefusal s r op m with
    | some st => refuseMem r op m st s
    | none => acceptMem r op m s

/-- One page of a PIN, PROMOTE, DEMOTE or WRITEBACK completes. -/
def finishPage (op p : Nat) (s : State) : State :=
  match s.mpage p with
  | none => s
  | some x =>
    if op = 3 then pinPage p s
    else if op = 5 then
      let s := quiesce p s
      if (tilesIn s p .low).isEmpty then s
      else
        let s := takeFrame p s
        if ((s.mpage p).bind (·.frame)).isSome then fetchAll p s else s
    else if op = 6 then (if x.frame.isSome && !x.pinned then demotePage p s else s)
    else endWriteback p (writeBackPage p s)

/-- What a page's completion waits for: a PIN for its frame, a PROMOTE for its LOW tiles. -/
def pageReady (op p : Nat) (s : State) : Bool :=
  match s.mpage p with
  | none => true
  | some x => if op = 3 then x.frame.isSome && x.pinned else if op = 5 then (tilesIn s p .low).isEmpty else true

/-- What is left to do to a page for a request needs Meridian: a move, fetch or write-back of its tiles, or a frame (R471). -/
def pageNeeds (op p : Nat) (s : State) : Bool :=
  match s.mpage p with
  | none => false
  | some x =>
    decide (2 ≤ x.moving) || (op == 3 && (x.frame.isNone || !(tilesIn s p .low).isEmpty)) ||
      (op == 5 && !(tilesIn s p .low).isEmpty) || (op == 6 && x.frame.isSome) || (op == 7 && !(tilesIn s p .dirty).isEmpty)

/-- Progress of a requester's request (R259); what needs Meridian waits for it (R471). -/
def memProgress (r : Req) (s : State) : State :=
  match mfind s.mig.requests (reqCode r) with
  | none => s
  | some q =>
    let next := if q.op = 2 then q.left else q.left.take 1
    if !hbmRuns s && next.any (fun p => pageNeeds q.op p s) then startMeridian s
    else if q.op = 2 then
      if q.left.any (pageWaited s) then s
      else
      let owners := q.left.foldl (fun l p => kins l (ownerOf s p)) []
      let s := forAll freePage q.left (forAll quiesce q.left s)
      let s := feedAll (forAll judgeQuota owners s)
      let s := modMig (fun m => { m with requests := mdel m.requests (reqCode r) }) s
      memSignal q.sig q.count (setMemStatus r 2 q.count s)
    else
      match q.left with
      | [] => s
      | p :: rest =>
        let s := finishPage q.op p s
        let q := { q with left := rest, done := q.done + 1 }
        let s := if pageReady q.op p s then memSignal q.sig 1 s else s
        if !pageReady q.op p s then s
        else if rest.isEmpty then
          modMig (fun m => { m with requests := mdel m.requests (reqCode r) }) (setMemStatus r 2 q.done s)
        else
          modMig (fun m => { m with requests := mset m.requests (reqCode r) q }) (setMemStatus r 1 q.done s)

/-- ALLOC. -/
def execAlloc (r : Req) (s : State) : Host.Outcome State Fault Refusal := .next (memCommand r 1 s)

/-- FREE. -/
def execMemFree (r : Req) (s : State) : Host.Outcome State Fault Refusal := .next (memCommand r 2 s)

/-- PIN. -/
def execMemPin (r : Req) (s : State) : Host.Outcome State Fault Refusal := .next (memCommand r 3 s)

/-- UNPIN. -/
def execMemUnpin (r : Req) (s : State) : Host.Outcome State Fault Refusal := .next (memCommand r 4 s)

/-- PROMOTE. -/
def execPromote (r : Req) (s : State) : Host.Outcome State Fault Refusal := .next (memCommand r 5 s)

/-- DEMOTE. -/
def execDemote (r : Req) (s : State) : Host.Outcome State Fault Refusal := .next (memCommand r 6 s)

/-- WRITEBACK. -/
def execWriteback (r : Req) (s : State) : Host.Outcome State Fault Refusal := .next (memCommand r 7 s)

/-- SETPLACE. -/
def execSetplace (r : Req) (s : State) : Host.Outcome State Fault Refusal := .next (memCommand r 8 s)

/-- A request with a reserved OP. An OP of the table is what it is, whichever row names it. -/
def execMemReservedOp (r : Req) (op : BitVec 4) (s : State) : Host.Outcome State Fault Refusal :=
  .next (memCommand r op.toNat s)

/-- A request, or one of its pages, completes (R259). -/
def execMemRequestDone (r : Req) (s : State) : Host.Outcome State Fault Refusal := .next (memProgress r s)

/-! ### Quota and limit (R253) -/

/-- A requester may write a context's quota or limit: the physical function of the owning host's port, or Vesper. -/
def mayWriteQuota (s : State) (r : Req) (ctx : Nat) : Bool :=
  match r with
  | .vesper => true
  | .func p f => let w := ctxOwner s ctx; f.val == 0 && bitOf w 8 && bitsOf w 0 0 == p.val
  | .core _ => false

/-- A write of MEM_QUOTA or MEM_LIMIT of the selected context. -/
def memLimits (r : Req) (quota : Bool) (v : Nat) (s : State) : State :=
  let ctx := fieldOf s (reqBank r) memPage 0x150 13 0
  if !mayWriteQuota s r ctx then logMemskip 3 r s
  else if quota then judgeQuota ctx (setWord (entryBank ctx) memPage 0x154 (v % 2 ^ 21) s)
  else setWord (entryBank ctx) memPage 0x158 (v % 2 ^ 21) s

/-- A write of MEM_QUOTA. -/
def execMemQuotaWrite (r : Req) (v : W32) (s : State) : Host.Outcome State Fault Refusal := .next (memLimits r true v.toNat s)

/-- A write of MEM_LIMIT. -/
def execMemLimitWrite (r : Req) (v : W32) (s : State) : Host.Outcome State Fault Refusal := .next (memLimits r false v.toNat s)

/-! ### The migration engine -/

/-- A Meridian-side access meets a tile that faults (R240). -/
def execTileFault (tile : Nat) (isWrite : Bool) (who : Fin 10) (s : State) : Host.Outcome State Fault Refusal :=
  .next (if hbmRuns s then startFault tile isWrite who.val s else s)

/-- The next LOW tile of a page is fetched in the background (R242). -/
def execBackgroundFetch (page : Nat) (s : State) : Host.Outcome State Fault Refusal := .next (fetchNext page s)

/-- A demotion or a write-back in progress finishes (R243); its frame may go to a pinned page that waits for one. -/
def execDemotionComplete (page : Nat) (s : State) : Host.Outcome State Fault Refusal :=
  .next (if 2 ≤ ((s.mpage page).map (·.moving)).getD 0 then withHbm (quiesce page) s else s)

/-- A page's demotion on the engine's own account begins. -/
def startEvict (p : Nat) (s : State) : State := modPage p (fun x => { x with moving := 4 }) s

/-- Frames that are free or will be once the evictions in progress end. -/
def comingFrames (s : State) : Nat := freeFrames s + countPages s (fun x => x.moving == 4)

/-- The next eviction: of a context over its quota first (R253), else under the free-frame marks (R251). -/
def nextEviction (s : State) : State :=
  let left := fun (ctx : Nat) => useOf s ctx - countPages s (fun x => x.ctx == ctx && x.moving == 4)
  match candidate s (fun x => decide (effQuota s x.ctx < left x.ctx)) with
  | some p => startEvict p s
  | none =>
    let low := fieldOf s 0 memPage 0x100 19 0
    let s := if freeFrames s < low then modMig (fun m => { m with draining := true }) s else s
    if s.mig.draining then
      if highMark s ≤ comingFrames s then modMig (fun m => { m with draining := false }) s
      else match candidate s (fun _ => true) with
        | some p => startEvict p s
        | none => s
    else s

/-- An eviction begins (R251, R253). -/
def execEviction (s : State) : Host.Outcome State Fault Refusal := .next (nextEviction s)

/-- A tick of 2^20 Gnomon cycles: ages advance, those of SEQ pages of armed contexts stay at 0, and LP5X-class pages of age
1 or more are demoted (R250, R257). -/
def ageStep (s : State) : State :=
  let armed := armedContexts s
  let t := s.mig.ticks + 1
  let s := advanceTo (t * 2 ^ 20) s
  let s := modMig (fun m =>
    { m with
      ticks := t
      idleSince := armed.foldl (fun i c => mset i c t) m.idleSince
      pages := m.pages.map (fun x =>
        if x.2.place = 2 ∧ armed.contains x.2.ctx then (x.1, { x.2 with touched := t }) else x) }) s
  let due := s.mig.pages.filter (fun x => evictable s x.1 x.2 && x.2.place == 1 && decide (1 ≤ ageOf s x.2))
  forAll startEvict (due.map (·.1)) s

/-- The age tick. -/
def execAgeTick (s : State) : Host.Outcome State Fault Refusal := .next (ageStep s)

/-- The demotion of the oldest SEQ page of an idle context begins (R257): one page at a time, oldest first. -/
def execSeqIdle (ctx : BitVec 14) (s : State) : Host.Outcome State Fault Refusal :=
  let mine := fun (x : MPage) => x.place == 2 && x.ctx == ctx.toNat
  .next (if ctxIdle s ctx.toNat && s.mig.pages.all (fun x => !(mine x.2 && x.2.moving == 4)) then
    match candidate s mine with
    | some p => startEvict p s
    | none => s
  else s)

/-! ### Memory errors (R409, R410) -/

/-- Unit class and index of a site (R401). Core memories are charged to their core, slice memory to shared logic. -/
def siteUnit : ErrSite → Nat × Nat
  | .hbm k => (1, k.val)
  | .lp5x k => (2, k.val)
  | .coreMem c => (0, c.val)
  | .shared => (6, 0)
  | .register c => (0, c.val)

/-- The frame and the extent that a unified address lies in, if its page holds one. -/
def frameAt (s : State) (a : Nat) : Option Nat := (s.mpage (pageOf a)).bind (·.frame)
def extentAt (s : State) (a : Nat) : Option Nat := (s.mpage (pageOf a)).bind (·.extent)

/-- The site of an error at an address: in HBM the stack follows from the tile and its frame (R236). -/
def siteOf (s : State) (site : ErrSite) (a : Nat) : ErrSite :=
  match site with
  | .hbm k => .hbm (match frameAt s a with
    | some f => stackOf (tileNo a) f
    | none => k)
  | .lp5x k => .lp5x k
  | .coreMem c => .coreMem c
  | .shared => .shared
  | .register c => .register c

/-- The frame or extent that an error's address lies in is retired (R258). An address that no page holds names a place of one
that is free, which the address mapping gives and the spec does not (DESIGN CHOICE, log entry 94). -/
def retireAt (site : ErrSite) (a : Nat) (s : State) : State :=
  match site with
  | .hbm k => retireFrame ((frameAt s a).getD (Config.frameOf k.val a % 524288)) k.val a s
  | .lp5x k => retireExtent ((extentAt s a).getD (Config.extentOf k.val a % 1045504)) k.val a s
  | .coreMem _ => s
  | .shared => s
  | .register _ => s

/-- The key of a DRAM row: the kind of memory, its stack or package, the row. -/
def rowKey (site : ErrSite) (row : Nat) : Nat :=
  match site with
  | .hbm k => row * 64 + k.val
  | .lp5x k => row * 64 + 8 + k.val
  | .coreMem _ => 0
  | .shared => 0
  | .register _ => 0

/-- Of the hours of a row's corrected errors, those within the window of REL_CEWIN hours (R258, R409). -/
def inWindow (s : State) (hs : List Nat) : List Nat :=
  hs.filter (fun h => decide (s.power.hours ≤ h + fieldOf s 0 relPage 0x110 15 0))

/-- A corrected error: REL_CE, the unit's count, and the row's errors of the window, with retirement at MIG_RETIRE (R258,
R409). -/
def corrected (site : ErrSite) (a row : Nat) (s : State) : State :=
  let site := siteOf s site a
  let u := unitKey (siteUnit site).1 (siteUnit site).2
  let s := modRel (fun r => { r with ceUnits := mmod 0 r.ceUnits u (· + 1) }) (bumpPair relPage 0x148 1 s)
  let dram := match site with
    | .hbm _ => true
    | .lp5x _ => true
    | .coreMem _ => false
    | .shared => false
    | .register _ => false
  if dram then
    let seen := s.power.hours :: inWindow s (mget [] s.mig.ceRows (rowKey site row))
    let thr := fieldOf s 0 memPage 0x10C 7 0
    let s := modMig (fun m => { m with ceRows := mset m.ceRows (rowKey site row) seen }) s
    if 0 < thr ∧ thr ≤ seen.length then
      retireAt site a (modMig (fun m => { m with ceRows := mdel m.ceRows (rowKey site row) }) s)
    else s
  else s

/-- A corrected error. -/
def execCorrectableError (site : ErrSite) (addr row : Nat) (s : State) : Host.Outcome State Fault Refusal :=
  .next (corrected site addr row s)

/-- An uncorrectable error (R410): the line, in LP5X the whole tile, is poisoned; MEMERR; an entry of kind 0x05; and for HBM
and LP5X retirement. A parity error in state that holds no data is charged to the core's task, as a consumption. -/
def uncorrected (site : ErrSite) (a : Nat) (s : State) : State :=
  let site := siteOf s site a
  let u := siteUnit site
  let hurt := fun (a n : Nat) (s : State) => if allocated s (pageOf a) then poisonRange a n s else s
  let seen := fun (s : State) => queueLog 5 u.1 u.2 a (logMemerr 1 u.1 a s)
  match site with
  | .lp5x _ => retireAt site a (seen (hurt (a / 4096 * 4096) 4096 s))
  | .hbm _ => retireAt site a (seen (hurt (a / 64 * 64) 64 s))
  | .coreMem _ => seen (poisonRange (a / 64 * 64) 64 s)
  | .shared => seen (poisonRange (a / 64 * 64) 64 s)
  | .register c => consumeTask c a (seen s)

/-- An uncorrectable error. -/
def execUncorrectableError (site : ErrSite) (addr : Nat) (s : State) : Host.Outcome State Fault Refusal :=
  .next (uncorrected site addr s)

/-- A scrub (R409): the corrected errors it meets, each with its site, address and row, count exactly as those of accesses
do. -/
def execScrub (errors : List (ErrSite × Nat × Nat)) (s : State) : Host.Outcome State Fault Refusal :=
  .next (forAll (fun (e : ErrSite × Nat × Nat) s => corrected e.1 e.2.1 e.2.2 s) errors s)

end Sys2Proof.Machine
end

