-- ==== Sys2Proof/Machine/Power.lean ====
section
/-! DEFINITION. The commands of power, clocks and ageing (R469 to R491) and of the board's power signals (R512, R513). -/
namespace Sys2Proof.Machine

/-- MOD_EN goes high; less than 100 ms after a fall it takes effect 100 ms after it (R512, R513). -/
def execModEnRise (v : Supply) (s : State) : Host.Outcome State Fault Refusal :=
  .next (if s.power.modEn then s
  else
    let s := match s.power.fellAt with
      | some t => advanceTo (t + msCycles 100) s
      | none => s
    modPower (fun p => { p with modEn := true, vin := v.mv, refclk156 := v.refclk156 }) s)

/-- MOD_EN falls (R513). -/
def execModEnFall (s : State) : Host.Outcome State Fault Refusal :=
  .next (modPower (fun p => { p with modEn := false }) (if s.power.modEn then powerOff s else s))

/-- Input power is lost (R513): first the trip when the input passes through 36.0 V, whose work the loss then ends. -/
def execInputPowerLoss (through36 : Bool) (s : State) : Host.Outcome State Fault Refusal :=
  .next (modPower (fun p => { p with vin := 0 }) (powerOff (if through36 then startTrip 17 s else s)))

/-- The input rises (R512). -/
def execInputPowerReturn (mv : Nat) (s : State) : Host.Outcome State Fault Refusal :=
  .next (if s.power.modState = 0 then
    let s := match s.power.fellAt with
      | some t => if s.power.modEn then advanceTo (t + msCycles 100) s else s
      | none => s
    modPower (fun p => { p with vin := mv }) s
  else s)

/-- PWR_CTRL MSTART. -/
def execMstart (_r : Req) (s : State) : Host.Outcome State Fault Refusal := .next (writePwrCtrl 1 s)

/-- PWR_CTRL MSTOP. -/
def execMstop (_r : Req) (s : State) : Host.Outcome State Fault Refusal := .next (writePwrCtrl 2 s)

/-- PWR_CTRL MOFF. -/
def execMoff (_r : Req) (s : State) : Host.Outcome State Fault Refusal := .next (writePwrCtrl 4 s)

/-- PWR_CTRL RESTART. -/
def execRestart (_r : Req) (s : State) : Host.Outcome State Fault Refusal := .next (writePwrCtrl 8 s)

/-- Meridian reaches RETAIN or OFF. -/
def execMeridianStopDone (s : State) : Host.Outcome State Fault Refusal := .next (stopDone s)

/-- A core on which nothing runs or waits is gated (R473). (DEDUCED, log entry 72.) -/
def execCoreGate (c : CoreId) (s : State) : Host.Outcome State Fault Refusal :=
  .next (if s.power.meridian = 2 ∧ fieldOf s 0 powerPage 0x114 15 0 ≠ 0 ∧ (s.core c).sched.task.isNone ∧
      !(s.core c).sched.fieldTest ∧ eligibleSlots s c = [] ∧ !(s.core c).sched.waking then
    modPower (fun p => { p with gated := kins p.gated c.val }) s
  else s)

/-- A gated core begins to wake for a slot that is eligible or a field test that is due; an access through a window wakes it
itself (R473). -/
def execCoreWake (c : CoreId) (s : State) : Host.Outcome State Fault Refusal :=
  .next (if eligibleSlots s c ≠ [] ∨ mget 0 s.rel.ftState c.val = 1 then wakeCore c s else s)

/-- The input is sampled. -/
def execVinSample (v : Supply) (s : State) : Host.Outcome State Fault Refusal := .next (sampleInput v s)

/-- The sensors are read. -/
def execSensorSample (temps : Vector Int 16) (modW merW : Nat) (s : State) : Host.Outcome State Fault Refusal :=
  .next (readSensors temps.toList modW merW s)

/-- A step of the clock procedure. -/
def execClockStep (s : State) : Host.Outcome State Fault Refusal := .next (stepClock s)

/-- Meridian's current exceeds PWR_IPEAK. -/
def execClamp (amps : Nat) (s : State) : Host.Outcome State Fault Refusal :=
  .next (if s.power.meridian = 2 ∧ fieldOf s 0 powerPage 0x110 11 0 < amps then
    logEvent powerPage 1 [] (lowerClock ((firstOver s).getD 0) 875
      (modPower (fun p => { p with clamped := true, clampAt := s.now }) s))
  else s)

/-- The clamp ends after 1 ms. -/
def execClampEnd (s : State) : Host.Outcome State Fault Refusal :=
  .next (if s.power.clamped then
    modPower (fun p => { p with clamped := false }) (advanceTo (s.power.clampAt + msCycles 1) s)
  else s)

/-- An hour of operation. -/
def execHourTick (s : State) : Host.Outcome State Fault Refusal :=
  .next (if 2 ≤ s.power.modState then modPower (fun p => { p with hours := p.hours + 1, planMin := p.planMin - 60 }) s else s)

/-- The periodic plan, once its 24 hours have passed. -/
def execPeriodicPlan (replicas : Vector (Vector Nat 32) 4) (eyes : Vector Nat 8) (s : State) :
    Host.Outcome State Fault Refusal :=
  .next (if 2 ≤ s.power.modState ∧ s.power.planMin = 0 then
    makePlan 3 replicas eyes (modPower (fun p => { p with planMin := 1440 }) s)
  else s)

/-- A write of ALM_REQ. -/
def execAlmReq (_r : Req) (replicas : Vector (Vector Nat 32) 4) (eyes : Vector Nat 8) (s : State) :
    Host.Outcome State Fault Refusal :=
  .next (if 2 ≤ s.power.modState then makePlan 4 replicas eyes s else s)

/-- PWR_LIMIT or PWR_MLIMIT. -/
def execPwrLimitWrite (_r : Req) (meridian : Bool) (v : W32) (s : State) : Host.Outcome State Fault Refusal :=
  .next (writeLimit meridian v.toNat s)

/-- The tile table has been rewritten after a trip. -/
def execTileTableRewriteDone (s : State) : Host.Outcome State Fault Refusal := .next (rewriteDone s)

end Sys2Proof.Machine
end

