-- ==== Sys2Proof/Machine/Reduction.lean ====
section
/-! DEFINITION. Reduce commands, reduction messages and deadlines (R308 to R322), and the calibration page's commands (R84, R86,
R92). -/
namespace Sys2Proof.Machine

/-! ### Reduce commands -/

/-- A reduce NOP. -/
def execReduceNop (c : CoreId) (s : State) : Host.Outcome State Fault Refusal :=
  .next (takeWhen c .reduce (opIs 0) (completeNow c .reduce) s)

/-- CONTRIB. -/
def execContrib (c : CoreId) (s : State) : Host.Outcome State Fault Refusal := .next (takeReduce c 1 s)

/-- RETRACT. -/
def execRetract (c : CoreId) (s : State) : Host.Outcome State Fault Refusal := .next (takeReduce c 2 s)

/-- A reduce command with a reserved OP. -/
def execReduceReservedOp (c : CoreId) (s : State) : Host.Outcome State Fault Refusal :=
  .next (takeWhen c .reduce (fun e => decide (2 < cmdOp e.word)) (logBadop c .reduce) s)

/-! ### The member -/

/-- A complete contribution or NOTICE leaves. -/
def execContribSend (ch : BitVec 6) (s : State) : Host.Outcome State Fault Refusal := .next (channelSend ch.toNat s)

/-- The member deadline falls. -/
def execMemberDeadline (b : BitVec 12) (s : State) : Host.Outcome State Fault Refusal := .next (memberDeadline b.toNat s)

/-- The CLEAR of the earlier step of a bucket whose epoch is clear leaves. -/
def execClearSend (b : BitVec 12) (s : State) : Host.Outcome State Fault Refusal :=
  let steps := [b.toNat * 2, b.toNat * 2 + 1].filterMap fun k =>
    (mfind s.red.members k).bind fun m => if m.retained.isSome && !m.clearSent && epochClear s m.epoch then some m.step else none
  .next (match steps with
    | [] => s
    | [a] => sendClear b.toNat a s
    | a :: b' :: _ => sendClear b.toNat (min a b') s)

/-- An AGREE arrives. -/
def execAgreeMsg (m : Msg) (s : State) : Host.Outcome State Fault Refusal := .next (onRed m [5] takeAgree s)

/-- A RECEXCL arrives. -/
def execRecexclMsg (m : Msg) (s : State) : Host.Outcome State Fault Refusal := .next (onRed m [7] takeRecexcl s)

/-! ### The home -/

/-- A CONTRIB arrives. A message with a reserved TYPE is of no row and is judged here (R313). -/
def execContribMsg (m : Msg) (s : State) : Host.Outcome State Fault Refusal :=
  .next (onRed m [1, 0, 8, 9, 10, 11, 12, 13, 14, 15] (fun _ => toHome m) s)

/-- A NOTICE arrives. -/
def execNoticeMsg (m : Msg) (s : State) : Host.Outcome State Fault Refusal := .next (onRed m [3] (fun _ => toHome m) s)

/-- A RETRACT arrives. -/
def execRetractMsg (m : Msg) (s : State) : Host.Outcome State Fault Refusal := .next (onRed m [2] (fun _ => toHome m) s)

/-- A CLEAR arrives. -/
def execClearMsg (m : Msg) (s : State) : Host.Outcome State Fault Refusal := .next (onRed m [6] (fun _ => toHome m) s)

/-- A PROPOSE arrives. -/
def execProposeMsg (m : Msg) (s : State) : Host.Outcome State Fault Refusal := .next (onRed m [4] takePropose s)

/-- The wait for the proposals of the lowest step of a parity ends. -/
def execAgreeTimeout (b : BitVec 12) (odd : Bool) (s : State) : Host.Outcome State Fault Refusal :=
  .next (match (waitingAgreements s b.toNat).find? (fun a => a.step % 2 == if odd then 1 else 0) with
    | some a => agreeLate b.toNat a s
    | none => s)

/-- The home deadline falls. -/
def execHomeDeadline (b : BitVec 12) (odd : Bool) (s : State) : Host.Outcome State Fault Refusal := .next (homeDue b.toNat odd s)

/-- A record opens empty. -/
def execRecordOpenEmpty (b : BitVec 12) (s : State) : Host.Outcome State Fault Refusal := .next (openEmpty b.toNat s)

/-- A record is excluded whole. -/
def execEpwaitExpire (b : BitVec 12) (odd : Bool) (s : State) : Host.Outcome State Fault Refusal := .next (epochDue b.toNat odd s)

/-! ### The calibration page -/

/-- The slot that a requester selected. -/
def calSel (s : State) (r : Req) : Nat := bitsOf (ownWord s r calPage 0x100) 13 0

/-- A write of CAL_CFG: the pending configuration, skipped whole for an H or G out of range. -/
def writeCalCfg (r : Req) (v : Nat) (s : State) : State :=
  let h := bitsOf v 13 8
  let g := bitsOf v 28 24
  if h < 4 ∨ 60 < h ∨ g = 0 then logFieldskip calPage 0x104 r v s
  else calMod (calSel s r) (fun x =>
    { x with pending := { x.pending with mode := bitsOf v 1 0, wm1 := bitsOf v 7 4, h := h, ho := bitsOf v 19 16, g := g } }) s

/-- A write of CAL_SEED: T0, and a history clear when bit 31 is set; the code −1024 is skipped whole. -/
def writeCalSeed (r : Req) (v : Nat) (s : State) : State :=
  if bitsOf v 10 0 = 0x400 then logFieldskip calPage 0x108 r v s
  else calMod (calSel s r) (fun x =>
    { x with pending := { x.pending with t0 := signedOf 11 (bitsOf v 10 0) }, clearReq := x.clearReq || bitOf v 31 }) s

/-- A slot's derivation completes (R86). -/
def execCalDeriveDone (slot : BitVec 14) (s : State) : Host.Outcome State Fault Refusal := .next (deriveUpTo slot.toNat s)

end Sys2Proof.Machine
end

