-- ==== Sys2Proof/Machine/Reliability.lean ====
section
/-! DEFINITION. The logbook (R416), withdrawal (R417), field tests (R418 to R420), job numbers and checkpoints (R412, R419),
and reports (R421). -/
namespace Sys2Proof.Machine

/-! ### Withdrawal (R417) -/

/-- WITHDRAW (R424). -/
def logWithdraw (cls idx : Nat) (s : State) : State := logEvent relPage 4 [cls + idx * 2 ^ 8] s

/-- Every job is contained. -/
def containAll (s : State) : State :=
  let jobs := (List.range 16384).reverse.foldl (fun l x => kins l (jobOf s x)) []
  forAll (fun j => containJob s.bnd.step j 4) jobs s

/-- The module goes out of service for a unit: every job is contained, every port goes DOWN, and the entry is queued. -/
def goOut (cls idx : Nat) (s : State) : State :=
  if s.rel.out then s
  else
    let s := modRel (fun r => { r with out := true }) (containAll s)
    let s := forAll portDown allPorts s
    showCapacity (queueLog 7 cls idx 0 s)

/-- Core c's slots return to IDLE and nothing runs on it. -/
def emptyCore (c : CoreId) (s : State) : State :=
  modCore c (fun k =>
    let k := endTask k
    { k with sched := { k.sched with slots := [], fieldTest := false, waking := false } }) s

/-- A task is in the course of its runs (R402, R403). -/
def Task.inRuns (t : Task) : Bool := t.sampled || t.lineFail || t.runEnded || t.run != .original

/-- The task of core c that is in the course of its runs is abandoned as a sampled one is (R417 item 1). -/
def markRuns (c : CoreId) (s : State) : State := modCore c (modTask (fun t => { t with sampled := t.inRuns })) s

/-- A core is withdrawn: the jobs with a slot on it that is not IDLE are contained, its slots return to IDLE, and it is gated
for good. -/
def withdrawCore (c : CoreId) (s : State) : State :=
  let jobs := (s.core c).sched.slots.foldl (fun l x => if x.2.state = 0 then l else kins l (jobOf s (slotCtx s c x.1))) []
  let s := emptyCore c (forAll (fun j => containJob s.bnd.step j 3) jobs (markRuns c s))
  let s := modPower (fun p => { p with gated := kins p.gated c.val }) s
  let s := modRel (fun r =>
    { r with withdrawn := kins r.withdrawn (unitKey 0 c.val), ftState := mdel r.ftState c.val }) s
  showCapacity (logWithdraw 0 c.val (queueLog 3 0 c.val 0 s))

/-- A port is withdrawn and held in DOWN. -/
def withdrawPort (p : PortId) (s : State) : State :=
  let s := modRel (fun r => { r with withdrawn := kins r.withdrawn (unitKey 3 p.val) }) s
  portDown p (logWithdraw 3 p.val (queueLog 3 3 p.val 0 s))

/-- A unit passes the permanent threshold (R401, R417). -/
def withdrawUnit (cls idx : Nat) (s : State) : State :=
  if withdrawn s cls idx then s
  else if cls = 0 then
    if allCores.any (fun c => withdrawn s 0 c.val) then goOut cls idx s else withdrawCore (Fin.ofNat 4 idx) s
  else if cls = 3 then withdrawPort (Fin.ofNat 24 idx) s
  else if 4 ≤ cls ∧ cls ≤ 6 then goOut cls idx s
  else s

/-! ### The logbook (R416) -/

/-- An entry counts toward the threshold of a unit. -/
def counts (s : State) (cls idx : Nat) (e : LogEntry) : Bool :=
  (e.kind == 1 || e.kind == 2 || e.kind == 6) && e.cls == cls && e.index == idx &&
    decide (s.power.hours ≤ e.hours + fieldOf s 0 relPage 0x108 23 8)

/-- The permanent threshold is applied after an entry has been written or kept. -/
def judgeUnit (e : LogEntry) (s : State) : State :=
  let n := (s.rel.logbook ++ s.rel.keptEntries).countP (counts s e.cls e.index)
  if (e.kind = 1 ∨ e.kind = 2 ∨ e.kind = 6) ∧ fieldOf s 0 relPage 0x108 7 0 ≤ n then withdrawUnit e.cls e.index s else s

/-- Vesper writes the first entry that waits: kept in memory, with MEMERR, when the logbook is full; dropped, when it
is of kind
0x05 and fewer than 4,096 are free; else appended, with LOGGED. -/
def writeEntry (s : State) : State :=
  match s.rel.toWrite with
  | [] => s
  | e :: t =>
    let s := modRel (fun r => { r with toWrite := t }) s
    let free := 524288 - s.rel.nextSeq
    if free = 0 then
      let s := modRel (fun r => { r with keptEntries := r.keptEntries ++ [e] }) (bumpPair relPage 0x158 1 s)
      judgeUnit e (logMemerr 3 e.cls (if e.kind = 4 ∨ e.kind = 5 then e.detail else 0) s)
    else if e.kind = 5 ∧ free < 4096 then bumpPair relPage 0x158 1 s
    else
      let n := s.rel.nextSeq
      let e := { e with seq := n, boot := s.vesper.bootCount, cycles := (s.now - s.vesper.goodAt) / 40 }
      let s := appendEntry e s
      let s := logEvent relPage 2 [e.kind + e.cls * 2 ^ 8 + e.index * 2 ^ 16, n] (showCapacity s)
      judgeUnit e s

/-! ### Field tests (R418 to R420) -/

/-- FTEST (R424). -/
def logFtest (cause : Nat) (c : CoreId) (s : State) : State := logEvent relPage 7 [cause + c.val * 2 ^ 4] s

/-- A core's field-test state. -/
def ftOf (s : State) (c : CoreId) : Nat := mget 0 s.rel.ftState c.val
def setFt (c : CoreId) (n : Nat) (s : State) : State :=
  modRel (fun r => { r with ftState := mput 0 r.ftState c.val n, ftSince := mset r.ftSince c.val s.now }) s

/-- A core becomes due; a due test starts Meridian (R471). -/
def dueTest (c : CoreId) (s : State) : State :=
  if !inService s c ∨ ftOf s c ≠ 0 then s else startMeridian (setFt c 1 s)

/-- The deferral of a core's test is over: the test is due at the next task boundary. -/
def endDeferral (c : CoreId) (s : State) : State :=
  modRel (fun r => { r with ckpt := kins r.ckpt c.val }) (setFt c 1 s)

/-- A due test starts at a task boundary. Banks, groups and tags are left as a dispatch leaves them (R208); the scalar and
vector registers are saved and restored. (DEDUCED, log entry 74.) -/
def startTest (c : CoreId) (s : State) : State :=
  if ftOf s c = 1 ∧ (s.core c).sched.task.isNone ∧ s.power.meridian = 2 ∧ !s.power.gated.contains c.val then
    let s := setFt c 3 s
    modCore c (fun k =>
      { discardGroups k with
        array := Array.reset, sched := { k.sched with fieldTest := true, gens := [], tags := [] } }) s
  else s

/-- A test ends. -/
def endTest (c : CoreId) (first second : Bool) (s : State) : State :=
  if ftOf s c ≠ 3 then s
  else
    let s := setFt c 0 s
    let s := modRel (fun r => { r with ckpt := kdel r.ckpt c.val }) s
    let s := modCore c (fun k => { k with sched := { k.sched with fieldTest := false } }) s
    if first then s
    else if second then queueLog 6 0 c.val 0 (logFtest 3 c s)
    else withdrawUnit 0 c.val (queueLog 6 0 c.val 0 (logFtest 4 c s))

/-- A requester may make a checkpoint for a core: the control core of a running context, or a function that qualifies for a
context with a slot on the core (R419). -/
def mayCheckpoint (s : State) (r : Req) (c : CoreId) : Bool :=
  match r with
  | .core d => (s.core d).sched.task.isSome
  | .func p f => (s.core c).sched.slots.any (fun x => decide (x.2.state ≠ 0) && funcQualifies s p f (slotCtx s c x.1))
  | .vesper => false

/-- A write of REL_CKPT; one that may make none of its checkpoints is discarded. -/
def writeCkpt (r : Req) (v : Nat) (s : State) : State :=
  let named := allCores.filter (fun c => bitOf v c.val)
  let ok := named.filter (mayCheckpoint s r)
  if named ≠ [] ∧ ok = [] then logFieldskip relPage 0x124 r v s
  else forAll (fun c s => if ftOf s c = 2 then endDeferral c s else s) ok s

/-- A write of REL_FTREQ. -/
def writeFtreq (v : Nat) (s : State) : State := forAll dueTest (allCores.filter (fun c => bitOf v c.val)) s

/-! ### Jobs (R412) -/

/-- The context that a requester selects on the reliability page. -/
def relSel (s : State) (r : Req) : Nat := bitsOf (ownWord s r relPage 0x134) 13 0

/-- The owning host's physical function, or Vesper. -/
def mayWriteJob (s : State) (r : Req) (ctx : Nat) : Bool :=
  match r with
  | .vesper => true
  | .func p f => f.val == 0 && bitOf (ctxOwner s ctx) 8 && bitsOf (ctxOwner s ctx) 0 0 == p.val
  | .core _ => false

/-- A write of REL_CTXJOB. -/
def writeCtxjob (r : Req) (v : Nat) (s : State) : State :=
  let ctx := relSel s r
  if mayWriteJob s r ctx then setWord (entryBank ctx) relPage 0x138 (putBits (jobWord s ctx) 13 0 v) s
  else logFieldskip relPage 0x138 r v s

/-! ### Reports (R421, R464) -/

/-- The event data of a report: 44 bytes (R464). -/
def reportBytes (s : State) (r : Report) : List Byte :=
  bytesOfNat 2 r.page ++ bytesOfNat 1 r.flag ++ bytesOfNat 1 0 ++ bytesOfNat 4 r.count ++ bytesOfNat 4 s.rel.dropped ++
    (List.range 4).flatMap (fun k => bytesOfNat 4 ((r.capture.getD []).getD k 0)) ++ bytesOfNat 8 r.step ++
    bytesOfNat 8 ((s.now - s.vesper.goodAt) / 40)

/-- SMB_ALERT# is low while a report waits (R510). -/
def smbAlertLow (s : State) : Bool := !s.rel.reports.isEmpty

/-- The oldest report goes to the receiver, when there is one, as an event of class 0xF0. -/
def sendReport (s : State) : State :=
  match s.vesper.receiver, s.rel.reports with
  | some w, r :: t =>
    { modRel (fun x => { x with reports := t, dropped := 0 }) s with
      out := s.out ++ [.report w.1 w.2 0xF0 (reportBytes s r)] }
  | _, _ => s

/-! ### Commands -/

/-- Vesper writes an entry. -/
def execLogbookWrite (s : State) : Host.Outcome State Fault Refusal := .next (writeEntry s)

/-- A 24-hour period ends for the ports (R417): those whose CRC count rose too far are charged. -/
def execLinkPeriod (s : State) : Host.Outcome State Fault Refusal :=
  .next (forAll (fun (p : PortId) s =>
    let n := rawPair s 0 (prtPage p) (prtOff p 0x20)
    let exceeds := decide (rawWord s 0 relPage 0x114 < n - mget 0 s.rel.crcBase p.val)
    let s := modRel (fun r => { r with crcBase := mset r.crcBase p.val n }) s
    if exceeds then queueLog 1 3 p.val 0 s else s) allPorts s)

/-- A core's test period ends. -/
def execFieldTestDue (c : CoreId) (s : State) : Host.Outcome State Fault Refusal := .next (dueTest c s)

/-- REL_FTREQ. -/
def execRelFtreq (_r : Req) (v : W32) (s : State) : Host.Outcome State Fault Refusal := .next (writeFtreq v.toNat s)

/-- A due test starts. -/
def execFieldTestStart (c : CoreId) (s : State) : Host.Outcome State Fault Refusal := .next (startTest c s)

/-- A test ends. -/
def execFieldTestEnd (c : CoreId) (firstPass secondPass : Bool) (s : State) : Host.Outcome State Fault Refusal :=
  .next (endTest c firstPass secondPass s)

/-- REL_FTBUDGET passes: the test waits for a checkpoint. -/
def execFtBudgetExpire (c : CoreId) (s : State) : Host.Outcome State Fault Refusal :=
  .next (if ftOf s c = 1 ∧ !s.rel.ckpt.contains c.val ∧ (s.core c).sched.task.isSome then
    let s := advanceTo (mget s.now s.rel.ftSince c.val + msCycles (fieldOf s 0 relPage 0x11C 15 0)) s
    setFt c 2 (logFtest 1 c s)
  else s)

/-- REL_FTLATE passes: the test runs at the next task boundary. -/
def execFtLateExpire (c : CoreId) (s : State) : Host.Outcome State Fault Refusal :=
  .next (if ftOf s c = 2 then
    let s := advanceTo (mget s.now s.rel.ftSince c.val + hourCycles (fieldOf s 0 relPage 0x120 15 0)) s
    endDeferral c (logFtest 2 c s)
  else s)

/-- REL_CKPT. -/
def execRelCkpt (r : Req) (v : W32) (s : State) : Host.Outcome State Fault Refusal := .next (writeCkpt r v.toNat s)

/-- REL_CTXJOB. -/
def execRelCtxjobWrite (r : Req) (v : W32) (s : State) : Host.Outcome State Fault Refusal := .next (writeCtxjob r v.toNat s)

/-- A report is sent. -/
def execReportSend (s : State) : Host.Outcome State Fault Refusal := .next (sendReport s)

end Sys2Proof.Machine
end

