-- ==== Sys2Proof/Machine/Scheduler.lean ====
section
/-! DEFINITION. Task slots, dispatch, replay, cancels and the runs of a task (R184, R206 to R226, R402 to R408), instruction-page
requests (R173). -/
namespace Sys2Proof.Machine

/-! ### Tile registers (R184) -/

/-- The committed copy of a tile register takes all eight staged words. -/
def commitTreg (c : CoreId) (t : Nat) (s : State) : State :=
  let staged := (s.core c).staged
  let s := forAll (fun k s => match mfind staged (t * 8 + k) with
    | some w => setWord 0 (trPage c t) (trOff t + 4 * k) w.toNat s
    | none => s) [0, 1, 2, 3, 4, 5, 6, 7] s
  modCore c (fun k => { k with staged := k.staged.filter (fun p => decide (p.1 / 8 ≠ t)) }) s

/-- A word of a tile register is staged; a write that reaches TR_EB commits. -/
def writeTreg (c : CoreId) (t w v : Nat) (s : State) : State :=
  let v := Nat.land v (maskOf (fun a => a == .rw) (regAt (trPage c t) (trOff t + 4 * w)).2)
  let s := modCore c (fun k => { k with staged := mset k.staged (t * 8 + w) (BitVec.ofNat 32 v) }) s
  if w = 7 then commitTreg c t s else s

/-! ### Slots -/

/-- A function qualifies for the context of the slot it arms (R206). -/
def armQualifies (s : State) (r : Req) (ctx : Nat) : Bool :=
  match r with
  | .func p f => funcQualifies s p f ctx
  | .core _ => true
  | .vesper => true

/-- A write of SCH_ARM (R206, R417). -/
def armSlot (r : Req) (c : CoreId) (n : Nat) (s : State) : State :=
  let st := (slotOf (s.core c) n).state
  if (st ≠ 0 ∧ st ≠ 5) ∨ !armQualifies s r (slotCtx s c n) ∨ !inService s c then logSlotwr c n s
  else
    let s := modMig (fun m => { m with idleSince := mset m.idleSince (slotCtx s c n) m.ticks }) s
    modCore c (fun k =>
      let seq := k.sched.armSeq + 1
      { k with sched := { k.sched with armSeq := seq, slots := mset k.sched.slots n ⟨1, seq⟩ } }) s

/-- A write of a slot's field, accepted only while the slot is IDLE or FAILED. -/
def writeSlot (r : Req) (c : CoreId) (n w v : Nat) (s : State) : State :=
  let st := (slotOf (s.core c) n).state
  if st ≠ 0 ∧ st ≠ 5 then logSlotwr c n s else storeHalf r 0 (tsPage c n) (tsOff n + 4 * w) v s

/-- A write of SCH_CANCEL (R225). -/
def writeCancel (c : CoreId) (n : Nat) (s : State) : State :=
  let st := (slotOf (s.core c) n).state
  if st = 5 then modCore c (setSlot n 0) s
  else if st = 0 ∨ st = 4 then logSlotwr c n s
  else cancelSlot c n s

/-- A cancelled task's engines are idle: its slot returns to IDLE (R225), or, after a failed replay, goes to FAILED (R216). -/
def execCancelComplete (c : CoreId) (s : State) : Host.Outcome State Fault Refusal :=
  .next (match (s.core c).sched.task with
    | some t => if t.halt = .cancel ∧ enginesIdle s c then freeSlot c t.slot s else endReplay c s
    | none => s)

/-! ### Dispatch, replay and the end -/

/-- The scheduler dispatches. -/
def execDispatch (c : CoreId) (s : State) : Host.Outcome State Fault Refusal :=
  .next (match chooseSlot s c with
    | some n => if mayDispatch s c then dispatchSlot c n s else s
    | none => s)

/-- A task ends. -/
def execTaskEnd (c : CoreId) (s : State) : Host.Outcome State Fault Refusal := .next (endRun c s)

/-- A faulted task is replayed in guarded mode (R214, R215). -/
def execGuardedReplay (c : CoreId) (s : State) : Host.Outcome State Fault Refusal :=
  .next (match (s.core c).sched.task with
    | some t =>
      if t.halt = .fault ∧ enginesIdle s c then bumpPair (coreP c 1) 0x130 1 (modCore c (restartTask true t.run t) s) else s
    | none => s)

/-- A guarded replay makes no progress (R216). -/
def execReplayHang (c : CoreId) (s : State) : Host.Outcome State Fault Refusal :=
  .next (if (s.core c).guarded && (s.core c).live then failReplay c 0 s else s)

/-- A check run begins. -/
def execCheckRun (c : CoreId) (s : State) : Host.Outcome State Fault Refusal := .next (startCheck c s)

/-- A deciding run begins. -/
def execDecidingRun (c : CoreId) (s : State) : Host.Outcome State Fault Refusal := .next (startDeciding c s)

/-- The outcome of a task's runs. -/
def execRunOutcome (c : CoreId) (s : State) : Host.Outcome State Fault Refusal := .next (decideOutcome c s)

/-! ### Instruction pages (R173) -/

/-- The page is active: the running task fetches from it. -/
def pageActive (k : Core) (p : Nat) : Bool := match k.sched.task with
  | some t => t.page == p
  | none => false

/-- A core's page put in a state; OPEN is not listed. -/
def setPage (p : Nat) (st : PageState) (k : Core) : Core :=
  { k with ctl := { k.ctl with pages := if st = .opened then mdel k.ctl.pages p else mset k.ctl.pages p st } }

/-- REQSKIP (R177). -/
def logReqskip (c : CoreId) (s : State) : State := logEvent (coreP c 0) 4 [] s

/-- A write of CC_PAGEREQ: the page, and the two request bits. One that sets neither bit is skipped as well (DESIGN CHOICE, log
entry 86). -/
def pageRequest (c : CoreId) (p : Nat) (open' ready : Bool) (s : State) : State :=
  let k := s.core c
  let st := mget PageState.opened k.ctl.pages p
  if open' && !ready && pageActive k p && st != .opened then modCore c (setPage p .closing) s
  else if open' && !ready && st == .ready then modCore c (setPage p .opened) s
  else if ready && !open' && st == .opened then modCore c (setPage p .ready) s
  else logReqskip c s

end Sys2Proof.Machine
end

