-- ==== Sys2Proof/Machine/Update.lean ====
section
/-! DEFINITION. The commands of the update engine (R283 to R300). -/
namespace Sys2Proof.Machine

/-- The engine begins the next update or COPY; frozen layers whose readers are done end theirs. -/
def startUpdate (s : State) : State :=
  let s := forAll (fun n s => endFrozen n (lyrGet s n).queue.length s) (s.layers.map (·.1)) s
  if s.updating.isSome then s
  else match nextLayer s with
    | some n => if layerWaits s n then wakeRanges (lentry s n).extents s else beginLayer n s
    | none => s

/-- The last bytes of both copies of a layer (R285). -/
def lastBytes (e : LEntry) : List (Nat × Nat) := [(e.base 4 + e.n * e.kp - 1, 1), (e.base 6 + e.k * e.np - 1, 1)]

/-- The update or COPY in progress ends: the last byte of each copy that it wrote is read before the add to CPYOBJ (R285). -/
def finishUpdate (s : State) : State :=
  match s.updating with
  | none => s
  | some (n, at0) =>
    let y := lyrGet s n
    let last := if y.wrote then lastBytes (lentry s n) else []
    if last.any (fun x => gnomonWaits s x.1 x.2) then wakeRanges last s else
    let s := readExtents last s
    let s := bumpPair updPage 0x198 (s.now - at0) { s with updating := none }
    endLayer n y.current (lyrMod n (fun z => { z with copying := if z.current.isSome then z.copying else false }) s)

/-- LYRWR (R299, R300). -/
def logLyrwr (n : Nat) (s : State) : State := logEvent updPage 5 [n] s

/-- The layer that a requester selected. -/
def updSel (s : State) (r : Req) : Nat := bitsOf (ownWord s r updPage 0x100) 13 0

/-- A write of UPD_CMD (R299). -/
def updCommand (r : Req) (op : Nat) (s : State) : State :=
  let n := updSel s r
  if op ≠ 1 ∨ (lyrGet s n).state ≠ 0 then logLyrwr n s
  else lyrMod n (fun y => { y with copying := true, state := 1 }) s

/-- A write of a layer entry's field, performed only while the layer is IDLE (R300). -/
def writeLayer (r : Req) (off v : Nat) (s : State) : State :=
  let n := updSel s r
  if off < 0x104 ∨ 0x178 < off ∨ off % 4 ≠ 0 then s
  else if (lyrGet s n).state ≠ 0 then logLyrwr n s
  else storeHalf r (entryBank n) updPage off v s

/-- An update begins. -/
def execUpdateStart (s : State) : Host.Outcome State Fault Refusal := .next (startUpdate s)

/-- An update ends. -/
def execUpdateEnd (s : State) : Host.Outcome State Fault Refusal := .next (finishUpdate s)

/-- COPY. -/
def execCopy (r : Req) (s : State) : Host.Outcome State Fault Refusal := .next (updCommand r 1 s)

/-- A layer entry is written. -/
def execLayerEntryWrite (r : Req) (off : BitVec 12) (v : W32) (s : State) : Host.Outcome State Fault Refusal :=
  .next (writeLayer r off.toNat v.toNat s)

end Sys2Proof.Machine
end

