-- ==== Sys2Proof/Machine/PageReads.lean ====
section
/-! DEFINITION. Reading registers: the bank behind a requester's selector (R92), what each block's chapter says a register shows,
the common header (R494), and an access of 32 or 64 bits (R11 to R14, R504). -/
namespace Sys2Proof.Machine

/-! ### Selectors (R92) -/

/-- The slot, entry, channel or forwarder that a requester has selected on a page. -/
def slotSel (s : State) (r : Req) (c : CoreId) : Nat := bitsOf (ownWord s r (coreP c 1) 0x110) 9 0
def memSel (s : State) (r : Req) : Nat := bitsOf (ownWord s r memPage 0x150) 13 0
def chanSel (s : State) (r : Req) : Nat := bitsOf (ownWord s r redPage 0x100) 5 0
def bucketSel (s : State) (r : Req) : Nat := bitsOf (ownWord s r redPage 0x120) 11 0
def routeSel (s : State) (r : Req) : Nat := bitsOf (ownWord s r ickPage 0x114) 13 0
def fwSel (s : State) (r : Req) : Nat := bitsOf (ownWord s r txnPage 0x140) 9 0

/-- The bank of a function page's words: those after a selector belong to the entry it names (R440). -/
def funcBank (s : State) (p : Fin 2) (f : Fin 65) (off : Nat) : Nat :=
  if off = 0x164 then entryBank (bitsOf (funcWord s p f 0x160) 7 0)
  else if 0x174 ≤ off ∧ off ≤ 0x180 then entryBank (watchSel s p f)
  else if off = 0x194 ∨ off = 0x198 then entryBank (bitsOf (funcWord s p f 0x190) 6 0)
  else 0

/-- The bank that holds a stored word of a page, for a requester. -/
def wordBank (s : State) (r : Req) (page off : Nat) : Nat :=
  if off < 0x100 then 0
  else match pageKind page with
    | .rac => if off = 0x100 then reqBank r else 0
    | .rel => if off = 0x134 then reqBank r else 0
    | .host => if off = 0x110 ∨ off = 0x114 then reqBank r else 0
    | .mem =>
      if (0x130 ≤ off ∧ off ≤ 0x150) ∨ off = 0x170 then reqBank r
      else if off = 0x154 ∨ off = 0x158 then entryBank (memSel s r) else 0
    | .upd => if off = 0x100 then reqBank r else if 0x104 ≤ off ∧ off ≤ 0x17C then entryBank (updSel s r) else 0
    | .so => if off = 0x100 then reqBank r else 0
    | .ctx => if off = 0x100 then reqBank r else entryBank (ctxSel s r)
    | .cal => if off = 0x100 then reqBank r else 0
    | .red =>
      if off = 0x100 ∨ off = 0x120 then reqBank r
      else if off < 0x120 then entryBank (chanSel s r)
      else if off ≤ 0x164 then entryBank (bucketSel s r) else 0
    | .ick => if off = 0x114 then reqBank r else 0
    | .txn =>
      if (0x110 ≤ off ∧ off ≤ 0x134) ∨ off = 0x140 then reqBank r
      else if 0x144 ≤ off then entryBank (fwSel s r) else 0
    | .sch _ => if off = 0x110 then reqBank r else 0
    | .func p f => funcBank s p f off
    | .vesper | .power | .bnd | .mdma | .edge _ | .ctl _ | .eq _ | .arr _ | .acc _ | .vec _ | .cdma _ | .tr _ _ | .ts _ _
    | .msix _ _ _ | .pba _ _ | .unassigned => 0

/-! ### What the chapters' registers show -/

/-- The word of a 64-bit quantity at an offset. -/
def half (off v : Nat) : Nat := if off % 8 = 0 then v % 2 ^ 32 else v / 2 ^ 32 % 2 ^ 32

/-- R72, R73: the record is cleared at open and written at close, STEPS alone rising while the group is open; while it is
CLOSING a field reads its final or its cleared value. After a soft reset all but STATE read zero until the record is next
written (DEDUCED, log entry 32). -/
def accWord (s : State) (c : CoreId) (off : Nat) : Nat :=
  let g := groupOf (s.core c) ((off - 0x100) / 0x40)
  let o := (off - 0x100) % 0x40
  if g.wiped then (if o = 0x00 then g.state else 0)
  else if o = 0x00 then g.state + g.mode * 4 + flagAt g.chk 4 + flagAt g.fail 5 + codeOf 10 g.anchor * 2 ^ 16
  else if o = 0x04 then (if g.state = 2 then g.planned else g.steps)
  else if o = 0x08 ∨ o = 0x0C then (if g.state = 1 ∨ g.state = 2 then 0 else half off g.rounded)
  else if o = 0x10 then g.ovfCells
  else if o = 0x14 then g.nfCells
  else if o = 0x18 then g.failLines
  else if o = 0x1C then g.unchkLines
  else if o = 0x20 then g.top
  else if o = 0x24 then g.firstLine
  else half off g.worst

/-- R92. -/
def calWord (s : State) (r : Req) (off : Nat) : Option Nat :=
  let x := calGet s (calSel s r)
  let p := x.pending
  if off = 0x104 then some (p.mode + p.wm1 * 2 ^ 4 + p.h * 2 ^ 8 + p.ho * 2 ^ 16 + p.g * 2 ^ 24)
  else if off = 0x108 then some (codeOf 11 p.t0)
  else if off = 0x10C then some (codeOf 11 x.tmax + codeOf 10 x.anchor * 2 ^ 16)
  else if off = 0x110 then some (x.ebyte + flagAt x.cold 8 + flagAt x.clamped 9 + flagAt x.pendAgree 10)
  else if off = 0x114 then
    some ((match x.obs.order with
      | some t => codeOf 11 t
      | none => 0x400) + flagAt x.obs.sat 16 + x.satSteps * 2 ^ 24)
  else if off = 0x118 ∨ off = 0x11C then some (half off s.bnd.step)
  else none

/-- The loader is writing a bank: its first load has begun. -/
def loading (a : Array) : Bool := a.loads.head?.any (fun j => decide (0 < j.rows) || !rowHeld a j 0)

/-- R114. (DESIGN CHOICE, log entry 47.) -/
def arrWord (s : State) (c : CoreId) (off : Nat) : Option Nat :=
  let a := (s.core c).array
  if off = 0x104 then
    some (mget 0 a.rowBank 0 + a.pointer * 2 + flagAt (a.words != []) 2 + flagAt (loading a) 3 +
      flagAt a.bank0.loaded 4 + flagAt a.bank1.loaded 5)
  else none

/-- R176. -/
def ctlWord (s : State) (c : CoreId) (off : Nat) : Option Nat :=
  let k := s.core c
  let busy := k.sched.task.isSome
  let st := fun (p : Nat) => match mget PageState.opened k.ctl.pages p with
    | .opened => 0
    | .ready => 1
    | .closing => 2
  if off = 0x100 then
    some (flagAt k.ctl.running 0 + (if busy then k.ctl.page * 2 else 0) + flagAt k.guarded 3 + flagAt k.ctl.ended 4)
  else if off = 0x104 then some k.ctl.pc
  else if off = 0x108 then
    some ([0, 1, 2, 3].foldl (fun a p => a + (st p + flagAt (pageActive k p) 2) * 2 ^ (4 * p)) 0)
  else if off = 0x110 then some (k.queues.matrix.length + k.queues.vector.length * 2 ^ 16)
  else if off = 0x114 then some (k.queues.dma.length + k.queues.reduce.length * 2 ^ 16)
  else none

/-- Index of the next entry of a queue to be taken (R179, R202). -/
def nextIdx (k : Core) (q : Queue) : Nat := (acceptedOf k q - (queueOf k q).length) % capacity q

/-- R202. -/
def eqWord (s : State) (c : CoreId) (off : Nat) : Option Nat :=
  let k := s.core c
  if off = 0x100 then some (nextIdx k .matrix + nextIdx k .vector * 2 ^ 16)
  else if off = 0x104 then some (nextIdx k .dma + nextIdx k .reduce * 2 ^ 16)
  else none

/-- R227. -/
def schWord (s : State) (r : Req) (c : CoreId) (off : Nat) : Option Nat :=
  let k := s.core c
  let n := slotSel s r c
  if off = 0x108 then
    some (match k.sched.task with
      | some t => t.slot + 2 ^ 16 + flagAt t.guarded 17
      | none => 0)
  else if off = 0x10C then
    some (k.sched.slots.countP (fun x => x.2.state == 1) + (eligibleSlots s c).length * 2 ^ 16)
  else if off = 0x114 then
    some ((slotOf k n).state + flagAt ((slotOf k n).state == 1 && slotReady s c n) 3)
  else none

/-- R230. -/
def ctxWord (s : State) (r : Req) (off : Nat) : Option Nat :=
  if off = 0x10C then some (armedCount s (ctxSel s r)) else none

/-- R229. -/
def soWord (s : State) (r : Req) (off : Nat) : Option Nat :=
  if off = 0x108 ∨ off = 0x10C then some (half off (objGet s (soSel s r)).toNat) else none

/-- MEM_QINFO and MEM_QOWNER of a page (R260). -/
def queryPage (s : State) (p : Nat) (owner : Bool) : Nat :=
  match s.mpage p with
  | none => 0
  | some x =>
    if owner then x.ctx + ageOf s x * 2 ^ 16
    else
      let dirty := (tilesIn s p .dirty).length
      1 + flagAt x.frame.isSome 1 + flagAt x.extent.isSome 2 + flagAt x.pinned 3 + x.place * 2 ^ 4 +
        flagAt (x.moving != 0) 6 + ((tilesIn s p .clean).length + dirty) * 2 ^ 7 + dirty * 2 ^ 17

/-- R260; what the record and the memories give reads zero until the record is in use (R15). -/
def memWord (s : State) (r : Req) (off : Nat) : Option Nat :=
  let cfg := fun (n : Nat) => some (if s.vesper.cfgOk then n else 0)
  let ctx := memSel s r
  let q := bitsOf (ownWord s r memPage 0x170) 20 0
  if off = 0x110 then cfg (framesIn s)
  else if off = 0x114 then cfg (freeFrames s)
  else if off = 0x118 then cfg (extentsIn s)
  else if off = 0x11C then cfg (freeExtents s)
  else if off = 0x120 then cfg (poolOf s)
  else if off = 0x124 then some s.mig.pages.length
  else if off = 0x128 then some (reserveLeft s)
  else if off = 0x12C then some (countPages s (·.pinned))
  else if off = 0x15C then some (useOf s ctx)
  else if off = 0x160 then some (allocOf s ctx)
  else if off = 0x164 then some (pinnedOf s ctx)
  else if off = 0x168 then some (flagAt (overQuota s ctx) 0)
  else if off = 0x16C then some (quotaFloor s ctx)
  else if off = 0x174 then some (queryPage s q false)
  else if off = 0x178 then some (queryPage s q true)
  else none

/-- Pacing holds a channel's issue (R273). -/
def paused (s : State) (ch : ChanId) : Bool := match issuer (s.chan ch) with
  | some x => (descOf x.desc).pace && decide (x.counted ≤ x.issued) && !paceGo s ch x
  | none => false

/-- R278; a channel's image is that of its shadow set. -/
def dmaWord (s : State) (ch : ChanId) (o : Nat) : Option Nat :=
  let k := s.chan ch
  if o < 0x40 then
    let w := ((k.shadow.map (·.desc)).getD []).getD (o / 4) 0
    some (if o = 0 then w % 2 ^ 18 else w)
  else if o = 0x40 then
    some (flagAt k.active.isSome 0 + flagAt k.shadow.isSome 1 + flagAt k.suspended.isSome 2 + flagAt (paused s ch) 3 +
      flagAt (k.active.any (fun x => x.owner.isNone)) 4 + k.lastOutcome * 2 ^ 5)
  else if o = 0x74 then some (chanTags s ch.val)
  else none

/-- R302; the cycles of an update in progress count. -/
def updWord (s : State) (r : Req) (off : Nat) : Option Nat :=
  let y := lyrGet s (updSel s r)
  if off = 0x17C then some (y.state + flagAt (decide (2 ≤ y.queue.length + (if y.state = 2 then 1 else 0))) 2 + flagAt y.rejected 3)
  else if off = 0x198 ∨ off = 0x19C then
    let more := match s.updating with
      | some (_, t) => s.now - t
      | none => 0
    some (half off (min (rawPair s 0 updPage 0x198 + more) (2 ^ 64 - 1)))
  else none

/-- The next message of a channel waits for channel order (R310). -/
def chanBlocked (s : State) (ch : Nat) : Bool := match firstSend (waitingSends s ch) with
  | some x => !lowerSent s ch x.2 x.1
  | none => false

/-- R326. -/
def redWord (s : State) (r : Req) (off : Nat) : Option Nat :=
  let ch := chanSel s r
  let b := bucketSel s r
  if off = 0x114 then some ((mget 0 s.red.used ch + 1023) / 1024 + flagAt (chanBlocked s ch) 24)
  else if off = 0x160 then
    let running := 0 < heldParts s b s.bnd.step
    let m := match memberOf s b s.bnd.step with
      | some m => if m.ended then 3 else if m.sent then 2 else if 0 < m.released ∨ m.ready ≠ 0 ∨ running then 1 else 0
      | none => if running then 1 else 0
    some (m + (match recordOf s b s.bnd.step with
      | some x => x.state
      | none => 0) * 4)
  else if off = 0x164 then some (mget 0 s.red.counts b)
  else none

/-- R354. -/
def ickWord (s : State) (r : Req) (off : Nat) : Option Nat :=
  if off = 0x118 then some (mget (0 : W32) s.ick.routes (routeSel s r)).toNat
  else if off = 0x11C then some ((upPorts s).foldl (fun a p => a + 2 ^ p.val) 0)
  else none

/-- R356. -/
def edgeWord (s : State) (p : PortId) (o : Nat) : Option Nat :=
  if o = 0x04 then some (putBits (rawWord s 0 (prtPage p) (prtOff p 4)) 2 0 (portOf s p).state) else none

/-- R380. -/
def txnWord (s : State) (off : Nat) : Option Nat := if off = 0x104 then some s.txn.tags.length else none

/-- R399. -/
def bndWord (s : State) (off : Nat) : Option Nat :=
  let b := s.bnd
  let ready := moduleReady s
  if off = 0x120 ∨ off = 0x124 then some (half off b.step)
  else if off = 0x128 then
    some (flagAt ready 0 + flagAt (ready && b.modeNow != 0 && b.credits == 0) 1 + flagAt (b.debts != 0) 2 + b.credits * 2 ^ 4 +
      flagAt b.early 8)
  else if off = 0x12C then some (min b.lastWait (2 ^ 17 - 1))
  else none

/-- R423. -/
def relWord (s : State) (r : Req) (off : Nat) : Option Nat :=
  if off = 0x12C then some (allCores.foldl (fun a c => a + ftOf s c * 4 ^ c.val) 0)
  else if off = 0x138 then some (jobWord s (relSel s r))
  else none

/-- R441. -/
def hostWord (s : State) (off : Nat) : Option Nat :=
  if off = 0x100 ∨ off = 0x104 then
    let h := s.host (Fin.ofNat 2 ((off - 0x100) / 4))
    some (h.rate + h.width * 2 ^ 3 + flagAt h.flitMode 7 + h.numVf * 2 ^ 8)
  else none

/-- R440. -/
def funcShow (p : Fin 2) (f : Fin 65) (off : Nat) : Option Nat := if off = 0x144 then some (p.val + f.val * 2) else none

/-- R467. -/
def vesperWord (s : State) (off : Nat) : Option Nat :=
  let v := s.vesper
  if off = 0x100 then
    some (v.stage + v.slot * 2 ^ 4 + flagAt v.trial 5 + flagAt v.fallback 6 + flagAt v.recovery 7 + flagAt v.idOk 8 +
      flagAt v.cfgOk 9)
  else if off = 0x104 then some (v.bootCount % 2 ^ 32)
  else if off = 0x108 then some (v.revoked + v.floor * 2 ^ 8)
  else if off = 0x114 then
    some (flagAt (scopeOpen s 0) 0 + flagAt (scopeOpen s 1) 1 + flagAt (scopeOpen s 2) 2 +
      flagAt (challengeOf s).isSome 8 + v.rejects * 2 ^ 12 + flagAt v.locked 14)
  else if 0x120 ≤ off ∧ off < 0x140 then
    some (match challengeOf s with
      | some (c, _) => c.toNat / 2 ^ (8 * (off - 0x120)) % 2 ^ 32
      | none => 0)
  else if off = 0x1AC then some v.eid
  else none

/-- R490. -/
def powerWord (s : State) (off : Nat) : Option Nat :=
  let p := s.power
  if off = 0x100 then
    some (p.meridian + p.modState * 2 ^ 4 + p.gated.foldl (fun a c => a + 2 ^ c) 0 * 2 ^ 8 + flagAt p.clamped 12 +
      flagAt p.tripped 13)
  else if off = 0x118 then some (min p.modW 2047 + min p.merW 2047 * 2 ^ 16)
  else if off = 0x11C then some (p.fcore + p.fmax * 2 ^ 16)
  else if off = 0x120 then some (min p.vin 65535)
  else if 0x124 ≤ off ∧ off < 0x134 then
    some ([0, 1, 2, 3].foldl (fun a k => a + codeOf 8 (p.temps.getD (off - 0x124 + k) 0) * 2 ^ (8 * k)) 0)
  else if off = 0x140 then some (min p.hours (2 ^ 32 - 1))
  else if off = 0x144 then some p.planMin
  else if off = 0x14C then some (p.alSeq % 2 ^ 32)
  else if off = 0x150 then some ([0, 1, 2, 3].foldl (fun a c => a + mget 0 p.guardMv c * 2 ^ (8 * c)) 0)
  else none

/-- The pages of the index that have numbers in the local map, from a number upwards. -/
def mappedPages : List Nat :=
  [0x000, 0x001, 0x002, 0x003, 0x004, 0x005, 0x006, 0x007, 0x008, 0x009] ++ meridianPages

/-- The page that RAC_SCAN names: the lowest at or above RAC_SCANFROM with a flag set (R505). -/
def scanPage (s : State) (r : Req) : Option Nat :=
  mappedPages.find? (fun n => decide (bitsOf (ownWord s r 0x000 0x100) 11 0 ≤ n) && evAny s n)

/-- R505. -/
def racWord (s : State) (r : Req) (off : Nat) : Option Nat :=
  if off = 0x104 then some ((scanPage s r).elim 0 (· + 2 ^ 31))
  else if off = 0x108 then some ((scanPage s r).elim 0 (fun n => rawWord s 0 n 0x010))
  else none

/-- A word of a function's pending-bit array (R429, R436). -/
def pendingWord (s : State) (p : Fin 2) (f : Fin 65) (off : Nat) : Nat :=
  (List.range 32).foldl (fun a b =>
    a + flagAt ((s.host p).msixPending.contains (f.val * 2048 + 8 * off + b)) b) 0

/-- The core of a page. -/
def pageCore : PKind → Option CoreId
  | .ctl c | .sch c | .eq c | .arr c | .acc c | .vec c | .cdma c | .tr c _ | .ts c _ => some c
  | .rac | .vesper | .power | .rel | .host | .mem | .upd | .bnd | .so | .ctx | .cal | .red | .ick | .txn | .mdma | .edge _
  | .func _ _ | .msix _ _ _ | .pba _ _ | .unassigned => none

/-- R494: PG_IDENT, PG_FEAT and PG_STAT; INSERV reads 0 on a withdrawn core's pages. (DEDUCED, log entry 76.) -/
def hdrWord (s : State) (page off : Nat) : Option Nat :=
  let k := pageKind page
  if off = 0x000 then some (1 + (pageIdent k).2 * 2 ^ 8 + (pageIdent k).1 * 2 ^ 16)
  else if off = 0x004 then
    let out := match pageCore k with
      | some c => withdrawn s 0 c.val
      | none => false
    some (flagAt (!out) 0 + flagAt (pageEvents k != 0) 1 + flagAt (onMeridian k) 2)
  else if off = 0x00C then some (putBits (rawWord s 0 page 0x00C) 9 9 (if evAny s page then 1 else 0))
  else none

/-- What a register shows when it is not what was last stored. -/
def shownWord (s : State) (r : Req) (page off : Nat) : Option Nat :=
  match pageKind page with
  | .msix _ _ _ => none
  | .pba p f => some (pendingWord s p f off)
  | .unassigned => none
  | k =>
    if off < 0x100 then hdrWord s page off
    else match k with
      | .rac => racWord s r off
      | .vesper => vesperWord s off
      | .power => powerWord s off
      | .rel => relWord s r off
      | .host => hostWord s off
      | .mem => memWord s r off
      | .upd => updWord s r off
      | .bnd => bndWord s off
      | .so => soWord s r off
      | .ctx => ctxWord s r off
      | .cal => calWord s r off
      | .red => redWord s r off
      | .ick => ickWord s r off
      | .txn => txnWord s off
      | .mdma =>
        if off < 0x500 then dmaWord s (Fin.ofNat 40 (32 + (off - 0x100) / 0x80)) ((off - 0x100) % 0x80) else none
      | .edge e => edgeWord s (Fin.ofNat 24 (6 * e.val + (off - 0x100) / 0x40)) ((off - 0x100) % 0x40)
      | .ctl c => ctlWord s c off
      | .sch c => schWord s r c off
      | .eq c => eqWord s c off
      | .arr c => arrWord s c off
      | .acc c => some (accWord s c off)
      | .vec c =>
        if off = 0x100 then some (flagAt ((s.core c).vec.running != []) 0 + flagAt (s.core c).guarded 1) else none
      | .cdma c => dmaWord s (Fin.ofNat 40 (8 * c.val + (off - 0x100) / 0x80)) ((off - 0x100) % 0x80)
      | .func p f => funcShow p f off
      | .tr _ _ | .ts _ _ | .msix _ _ _ | .pba _ _ | .unassigned => none

/-- A register word as a requester sees it now: WO fields and reserved bits read zero (R6, R14), an unassigned offset too
(R13). -/
def regNow (s : State) (r : Req) (page off : Nat) : Nat :=
  let fs := (regAt page off).2
  if fs.isEmpty then 0
  else
    Nat.land ((shownWord s r page off).getD (rawWord s (wordBank s r page off) page off)) (maskOf (fun a => a != .wo) fs)

/-! ### Accesses (R11, R12, R504) -/

/-- The access has a width and alignment that R11 admits. (DEDUCED, log entry 5.) -/
def shapeOk (page off : Nat) (wide : Bool) : Bool :=
  if wide then off % 8 == 0 && ((regAt page off).1 == 1 || (regAt page off).1 == 3) else off % 4 == 0

/-- A read of a register that passes check 1: its value; a 32-bit read of a pair's low word latches its high word for the
requester's next read of it (R12). -/
def readWord (r : Req) (page off : Nat) (wide : Bool) (s : State) : Nat × State :=
  let k := (regAt page off).1
  if wide then (regNow s r page off + 2 ^ 32 * regNow s r page (off + 4), s)
  else if k = 1 then
    (regNow s r page off,
      { s with latch := mset s.latch (rkey (reqBank r) page (off + 4)) (BitVec.ofNat 32 (regNow s r page (off + 4))) })
  else if k = 2 then
    match mfind s.latch (rkey (reqBank r) page off) with
    | some w => (w.toNat, { s with latch := mdel s.latch (rkey (reqBank r) page off) })
    | none => (regNow s r page off, s)
  else (regNow s r page off, s)

/-- MERIDOFF (R431, R442). -/
def logMeridoff (p : Fin 2) (f : Fin 65) (s : State) : State := startMeridian (logHost 3 p f 0 0 s)

/-- What becomes of a requester's access to a page of Meridian that is not in RUN: a function's is not performed,
with MERIDOFF
(R431); Vesper's waits (R471). The access goes on where the first component is true. -/
def reachPage (r : Req) (page : Nat) (s : State) : Bool × State :=
  if !onMeridian (pageKind page) || s.power.meridian == 2 then (true, s)
  else match r with
    | .func p f => (false, logMeridoff p f s)
    | .vesper => (false, startMeridian s)
    | .core _ => (true, s)

/-- An access by Vesper needs Meridian, which is not in RUN. -/
def vesperWaits (r : Req) (page : Nat) (s : State) : Bool :=
  r == .vesper && onMeridian (pageKind page) && s.power.meridian != 2

/-- Meridian moves towards RUN. -/
def starting (s : State) : Bool := s.power.meridian == 1 || s.power.meridian == 3

/-- Such an access starts Meridian and waits for RUN (R471); where Meridian cannot start it is not performed
(DEDUCED, log entry 31). -/
def holdVesper (h : HeldReg) (s : State) : State :=
  let s := startMeridian s
  if starting s then { s with vesper := { s.vesper with held := s.vesper.held ++ [h] } } else s

/-- A register read, judged by R504. -/
def regRead (r : Req) (page off : Nat) (wide : Bool) (s : State) : Nat × State :=
  if !shapeOk page off wide then (0, logRac 0 page off false wide r 0 s)
  else
    let a := reachPage r page s
    if a.1 then readWord r page off wide a.2 else (0, a.2)

/-- The page and offset that an address of the register pages names. -/
def regPlace (addr : Nat) : Nat × Nat := ((addr - 0xF0000000000) / 4096, addr % 4096)

/-- The page and offset behind an offset of a function's control window: its own pages from 0xFF_0000 (R429). -/
def windowPlace (p : Fin 2) (f : Fin 65) (x : Nat) : Nat × Nat :=
  if x < 0xFF0000 then (x / 4096, x % 4096) else (funcPage p f + (x - 0xFF0000) / 4096, x % 4096)

/-- The page and offset that a requester's address names: a function's is that of its control window. -/
def reqPlace (r : Req) (addr : Nat) : Nat × Nat :=
  match r with
  | .func p f => windowPlace p f (addr - 0xF0000000000)
  | .core _ => regPlace addr
  | .vesper => regPlace addr

/-- The control-window offset of a place, for HOSTDENY. -/
def windowOff (p : Fin 2) (f : Fin 65) (page off : Nat) : Nat :=
  if page < 0x2000 then page * 4096 + off else 0xFF0000 + (page - funcPage p f) * 4096 + off

end Sys2Proof.Machine
end

