-- ==== Sys2Proof/Machine/PageWrites.lean ====
section
/-! DEFINITION. Writing registers: the checks of R504 in their order, the common header with soft reset and debug access
(R494 to R501), and the operation of each block's chapter that a write performs. -/
namespace Sys2Proof.Machine

/-! ### Soft reset (R498) -/

/-- A page's clock domain, in R476's order (R493). -/
def pageDomain : PKind → Nat
  | .ctl _ | .sch _ | .eq _ | .arr _ | .acc _ | .vec _ | .cdma _ | .tr _ _ | .ts _ _ => 4
  | .cal | .red | .txn | .mdma => 5
  | .ick | .edge _ => 7
  | .vesper => 0
  | .rac | .power | .rel | .host | .mem | .upd | .bnd | .so | .ctx | .func _ _ | .msix _ _ _ | .pba _ _ | .unassigned => 1

/-- A word that a soft reset of the context page leaves: a context's (R230). -/
def keptWord (page bank : Nat) : Bool := page == ctxPage && decide (65536 ≤ bank)

/-- A page's stored words, and what is held or latched of them, return to Reset (R15, R498). -/
def resetWords (page : Nat) (s : State) : State :=
  let on := fun (k : Nat) => k / 1024 % 16384 == page
  { s with
    regs := s.regs.filter (fun x =>
      !on x.1 || x.1 / 1024 / 16384 == cfgBank || keptWord page (x.1 / 1024 / 16384))
    latch := s.latch.filter (fun x => !on x.1), heldLow := s.heldLow.filter (fun x => !on x.1) }

/-- A group's close record at its Reset values; the group itself stays as it is (DEDUCED, log entry 32). -/
def clearRecord (g : Group) : Group := { g with wiped := true }

/-- Registers of a page that the model holds outside the stored words, and the state that its chapter names, reset. -/
def resetBlock (page : Nat) (s : State) : State :=
  match pageKind page with
  | .ctl c =>
    modCore c (fun k => { k with ctl := { k.ctl with sregs := [], pages := [], pc := 0 } }) s
  | .tr c j => modCore c (fun k => { k with staged := k.staged.filter (fun x => x.1 / 8 / 64 != j.val) }) s
  | .acc c =>
    modCore c (fun k => modGroup 0 clearRecord (modGroup 1 clearRecord (modGroup 2 clearRecord (modGroup 3 clearRecord k)))) s
  | .mdma => forAll (fun k s => modChan (wideChan k) (fun x => { x with lastOutcome := 0 }) s) [0, 1, 2, 3, 4, 5, 6, 7] s
  | .ick => portsChanged (modIck (fun k => { k with routes := [] }) s)
  | .edge e => forAll (fun q s => portDown (Fin.ofNat 24 (6 * e.val + q)) s) [0, 1, 2, 3, 4, 5] s
  | .bnd => ageAgreements (modBnd (fun b => { Bnd.reset with charged := b.charged, outHigh := b.outHigh }) (setStep 0 s))
  | .vesper => modVesper (fun v => { v with token := [], challenge := none }) s
  | .upd =>
    setPair cfgBank updPage 0x160 0
      { s with
        layers := s.layers.map (fun x => (x.1, { x.2 with rejected := false }))
        updating := s.updating.map (fun x => (x.1, s.now)) }
  | .red => { s with red := { s.red with counts := [] } }
  | .rac | .power | .rel | .host | .mem | .so | .ctx | .cal | .txn | .sch _ | .eq _ | .arr _ | .vec _ | .cdma _
  | .ts _ _ | .func _ _ | .msix _ _ _ | .pba _ _ | .unassigned => s

/-- A core's register read in flight to a page that is reset returns zero (R479). -/
def flushRead (page : Nat) (k : Core) : Core :=
  match k.ctl.regWait with
  | none => k
  | some w =>
    if 0xF0000000000 + page * 4096 ≤ w.addr ∧ w.addr < 0xF0000000000 + (page + 1) * 4096 then
      nextPc (sset w.rd 0 { k with ctl := { k.ctl with regWait := none } })
    else k

/-- A soft reset that is performed: RSTBUSY is set until it is done, and the crossings of the page's clock domain are flushed
(R479; DEDUCED, log entry 30). -/
def softReset (page : Nat) (s : State) : State :=
  let s := resetBlock page (setWord 0 page 0x00C (2 ^ 8) (resetWords page s))
  flushCrossings [pageDomain (pageKind page)] (forAll (fun c => modCore c (flushRead page)) allCores s)

/-- A task is running on the core whose control page this is (R160). -/
def resetBarred (s : State) (page : Nat) : Bool :=
  match pageKind page with
  | .ctl c => (s.core c).sched.task.isSome
  | .rac | .vesper | .power | .rel | .host | .mem | .upd | .bnd | .so | .ctx | .cal | .red | .ick | .txn | .mdma | .edge _
  | .sch _ | .eq _ | .arr _ | .acc _ | .vec _ | .cdma _ | .tr _ _ | .ts _ _ | .func _ _ | .msix _ _ _ | .pba _ _
  | .unassigned => false

/-- A soft reset that is skipped: REQSKIP under R160, HDRSKIP otherwise. -/
def skipReset (r : Req) (page v : Nat) (s : State) : State :=
  match pageKind page with
  | .ctl c => if (s.core c).sched.task.isSome then logReqskip c s else logRac 4 page 0x008 true false r v s
  | .rac | .vesper | .power | .rel | .host | .mem | .upd | .bnd | .so | .ctx | .cal | .red | .ick | .txn | .mdma | .edge _
  | .sch _ | .eq _ | .arr _ | .acc _ | .vec _ | .cdma _ | .tr _ _ | .ts _ _ | .func _ _ | .msix _ _ _ | .pba _ _
  | .unassigned => logRac 4 page 0x008 true false r v s

/-! ### The header (R494 to R501) -/

/-- EN of a page is written; the boundary page (R382, R384) and the Ickor page (R333) act on a change. -/
def writeEn (page : Nat) (on : Bool) (s : State) : State :=
  if page = bndPage then (if on then enableBoundary s else disableBoundary s)
  else
    let was := pageEn s page
    let s := setField 0 page 0x008 0 0 (if on then 1 else 0) s
    if page = ickPage ∧ was ≠ on then ickorEnabled on s else s

/-- A write of PG_CTRL that sets DBG while PGDBG is closed is discarded (R460, R499). -/
def dbgBarred (s : State) (v : Nat) : Bool := bitOf v 2 && !scopeOpen s 1

/-- FECLR: the capture is empty (R495); its words keep nothing. -/
def clearCapture (page : Nat) (s : State) : State :=
  forAll (fun k s => setWord 0 page (0x040 + 4 * k) 0 s) [0, 1, 2, 3] (setField 0 page 0x00C 5 0 0 s)

/-- CNTCLR: the eight counters are zero. -/
def clearCounts (page : Nat) (s : State) : State :=
  forAll (fun k s => setWord 0 page (0x020 + 4 * k) 0 s) [0, 1, 2, 3, 4, 5, 6, 7] s

/-- A write of PG_CTRL's fields other than SRST: FECLR and CNTCLR before whatever EN raises (R501). -/
def writeCtrlFields (page v : Nat) (s : State) : State :=
  let s := if bitOf v 3 then clearCapture page s else s
  let s := if bitOf v 4 then clearCounts page s else s
  setField 0 page 0x008 2 2 (bitsOf v 2 2) (writeEn page (bitOf v 0) s)

/-- A write of PG_CTRL (R498): a soft reset that is performed is all it does; one that is skipped leaves the other
fields to act, and is logged after them (R501, R506).
(DEDUCED, log entry 6.) -/
def writePgCtrl (r : Req) (page v : Nat) (s : State) : State :=
  if dbgBarred s v then logDbgrej 7 s
  else if bitOf v 1 then
    if !pageEn s page && !resetBarred s page then softReset page s else skipReset r page v (writeCtrlFields page v s)
  else writeCtrlFields page v s

/-- A write of PG_EVENT: a 1 clears the flag (R14). -/
def writeEvents (page v : Nat) (s : State) : State :=
  setWord 0 page 0x010 (Nat.land (rawWord s 0 page 0x010) (Nat.xor (v % 2 ^ 32) 0xFFFFFFFF)) s

/-- The page opens with the common header (R494): not so a function's MSI-X table and pending-bit array. -/
def hasHeader (page : Nat) : Bool := decide (page < 0x2000) || page % 16 == 0

/-- Debug access is on for a page, and the word is a counter or a capture word (R499). -/
def debugWord (s : State) (page off : Nat) : Bool :=
  hasHeader page && bitOf (rawWord s 0 page 0x008) 2 && decide (0x020 ≤ off ∧ off < 0x050)

/-- A counter that the page reserves: it reads zero (R6). (DEDUCED, log entry 77.) -/
def reservedCount (page off : Nat) : Bool :=
  hasHeader page && decide (0x020 ≤ off ∧ off < 0x040 ∧ 0x020 + 4 * pageEvents (pageKind page) ≤ off)

/-- A write of a header word (R494); under DBG a capture word also sets FEVALID (R499). -/
def writeHeader (r : Req) (page off v : Nat) (s : State) : State :=
  if off = 0x008 then writePgCtrl r page v s
  else if off = 0x010 then writeEvents page v s
  else if off = 0x014 then setWord 0 page 0x014 v s
  else if debugWord s page off then
    let s := setWord 0 page off v s
    if 0x040 ≤ off then setField 0 page 0x00C 0 0 1 s else s
  else s

/-! ### Blocks whose rules guard their registers (R504 check 6) -/

/-- RCFGWR (R327). -/
def logRcfgwr (s : State) : State := logEvent redPage 7 [] s

/-- A bucket has a part, a retained CONTRIB or an open record on this module (R326; DEDUCED, log entry 33). -/
def bucketBusy (s : State) (b : Nat) : Bool :=
  let parts := allCores.any (fun c => match (s.core c).sched.task with
    | some t => t.parts.any (fun p => p.bucket == b)
    | none => false)
  let held := s.red.members.any (fun x => x.1 / 2 == b && (x.2.space != 0 || x.2.retained.isSome))
  let opened := s.red.records.any (fun x => x.1 / 2 == b && decide (1 ≤ x.2.state ∧ x.2.state ≤ 3))
  parts || held || opened

/-- A write of the reduction page's channel or bucket registers may be made. -/
def redOpen (s : State) (r : Req) (off v : Nat) : Bool :=
  if 0x108 ≤ off ∧ off < 0x120 then mget 0 s.red.used (chanSel s r) == 0
  else if 0x124 ≤ off ∧ off ≤ 0x15C then
    !bucketBusy s (bucketSel s r) && !(off == 0x130 && bitsOf v 24 0 == 0)
  else true

/-- A write of one word, or of one half of a pair that is only stored, that the chapter of a page judges. -/
def writePlain (r : Req) (page off v : Nat) (s : State) : State := storeHalf r (wordBank s r page off) page off v s

/-- A word of the reduction page. -/
def writeRed (r : Req) (off v : Nat) (s : State) : State :=
  if redOpen s r off v then writePlain r redPage off v s else logRcfgwr s

/-- The channel whose DMA_PACEOBJ or DMA_ISSUED lies at an offset of a DMA page, core c's or the module-wide one. -/
def pacedAt (c : Option CoreId) (off : Nat) : Option ChanId :=
  let o := (off - 0x100) % 0x80
  if 0x100 ≤ off ∧ off < 0x500 ∧ (o = 0x4C ∨ o = 0x58 ∨ o = 0x5C) then
    some (match c with
      | some c => Fin.ofNat 40 (8 * c.val + (off - 0x100) / 0x80)
      | none => wideChan (Fin.ofNat 8 ((off - 0x100) / 0x80)))
  else none

/-- A write of those registers is made only while their channel holds no transfer (R273); one at another time is discarded. -/
def whenUnpaced (c : Option CoreId) (off : Nat) (store : State → State) (s : State) : State :=
  match pacedAt c off with
  | some ch =>
    let k := s.chan ch
    if k.active.isSome || k.shadow.isSome then logDmaskip ch s else store s
  | none => store s

/-- HIF_CTXASSIGN (R433); functions 65 to 127 do not exist. -/
def writeAssign (r : Req) (v : Nat) (s : State) : State :=
  if bitOf v 8 then unassignCtx r s
  else if 64 < bitsOf v 7 1 then logHifskip 1 r s
  else assignCtx r (Fin.ofNat 2 (bitsOf v 0 0)) (Fin.ofNat 65 (bitsOf v 7 1)) s

/-- The measured values of a plan that a register write asks for: free values (R486; DESIGN CHOICE, log entry 34). -/
def freeVec (n : Nat) (s : State) : Vector Nat n × State :=
  (Vector.ofFn (fun k => (Config.freeValue (s.freeCtr + k.val)).toNat % 2 ^ 32), { s with freeCtr := s.freeCtr + n })

/-- The replicas of the four cores as such a plan finds them. -/
def freeReplicas (s : State) : Vector (Vector Nat 32) 4 × State :=
  (Vector.ofFn (fun c => Vector.ofFn (fun k => (Config.freeValue (s.freeCtr + 32 * c.val + k.val)).toNat % 2 ^ 32))
    , { s with freeCtr := s.freeCtr + 128 })

/-- ALM_REQ (R486). -/
def writeAlmReq (v : Nat) (s : State) : State :=
  if bitOf v 0 && decide (2 ≤ s.power.modState) then
    let d := freeReplicas s
    let e := freeVec 8 d.2
    makePlan 4 d.1 e.1 e.2
  else s

/-- DMA_START of a module-wide channel (R275, R276). -/
def writeDmaStart (r : Req) (k : Fin 8) (v : Nat) (s : State) : State :=
  let s := if bitOf v 1 then abortWrite k s else s
  if bitOf v 0 then startWrite r k s else s

/-- A word of a function's page (R434 to R437, R440); a code of VFSEL other than 1 to 64 is reserved (R5). -/
def writeFunc (r : Req) (p : Fin 2) (f : Fin 65) (off v : Nat) (s : State) : State :=
  if off = 0x140 then (if bitOf v 0 then acceptFeatures p f s else withdrawFeatures p f s)
  else if off = 0x164 then writeDbobj p f v s
  else if off = 0x174 then writeWcfg p f v s
  else if off = 0x190 ∧ f.val = 0 ∧ (bitsOf v 6 0 = 0 ∨ 64 < bitsOf v 6 0) then logFieldskip (funcPage p f) off r v s
  else if 0x178 ≤ off ∧ off ≤ 0x180 ∧ watchCount f ≤ watchSel s p f then logFieldskip (funcPage p f) off r v s
  else writePlain r (funcPage p f) off v s

/-- A write of one 32-bit word outside the header, judged by its block's chapter (R504 check 6). -/
def writePageWord (r : Req) (page off v : Nat) (s : State) : State :=
  match pageKind page with
  | .vesper =>
    if off = 0x110 then writeDbgreq r v s
    else if 0x140 ≤ off ∧ off < 0x1A0 then writeToken ((off - 0x140) / 4) v s
    else writePlain r page off v s
  | .power =>
    if off = 0x104 then writePwrCtrl v s
    else if off = 0x108 then writeLimit false v s
    else if off = 0x10C then writeLimit true v s
    else if off = 0x148 then writeAlmReq v s
    else writePlain r page off v s
  | .rel =>
    if off = 0x124 then writeCkpt r v s
    else if off = 0x128 then writeFtreq v s
    else if off = 0x138 then writeCtxjob r v s
    else writePlain r page off v s
  | .host =>
    if off = 0x108 then writeAdmin r v s else if off = 0x118 then writeAssign r v s else writePlain r page off v s
  | .mem =>
    if off = 0x140 then memCommand r (bitsOf v 3 0) s
    else if off = 0x154 then memLimits r true v s
    else if off = 0x158 then memLimits r false v s
    else writePlain r page off v s
  | .upd =>
    if off = 0x180 then updCommand r (bitsOf v 3 0) s
    else if 0x104 ≤ off ∧ off ≤ 0x178 then writeLayer r off v s
    else writePlain r page off v s
  | .bnd => if off = 0x100 then writeBndCtrl v s else if off = 0x104 then writeBndHold v s else writePlain r page off v s
  | .ctx => if off = 0x104 then writeCtxCfg r v s else writePlain r page off v s
  | .cal => if off = 0x104 then writeCalCfg r v s else if off = 0x108 then writeCalSeed r v s else writePlain r page off v s
  | .red => writeRed r off v s
  | .ick => if off = 0x118 then writeRtentry r v s else writePlain r page off v s
  | .txn => if off = 0x128 then ropCommand r (bitsOf v 3 0) (bitOf v 4) s else writePlain r page off v s
  | .mdma =>
    if off < 0x500 ∧ (off - 0x100) % 0x80 = 0x70 then writeDmaStart r (Fin.ofNat 8 ((off - 0x100) / 0x80)) v s
    else whenUnpaced none off (writePlain r page off v) s
  | .cdma c => whenUnpaced (some c) off (writePlain r page off v) s
  | .edge e =>
    if (off - 0x100) % 0x40 = 0 then writePrtCtrl (Fin.ofNat 24 (6 * e.val + (off - 0x100) / 0x40)) v s
    else writePlain r page off v s
  | .ctl c => if off = 0x10C then pageRequest c (bitsOf v 1 0) (bitOf v 8) (bitOf v 9) s else writePlain r page off v s
  | .sch c =>
    if off = 0x100 then armSlot r c (bitsOf v 9 0) s
    else if off = 0x104 then writeCancel c (bitsOf v 9 0) s
    else writePlain r page off v s
  | .ts c j => writeSlot r c (32 * j.val + (off - 0x100) / 0x40) ((off - 0x100) % 0x40 / 4) v s
  | .func p f => writeFunc r p f off v s
  | .rac | .so | .eq _ | .arr _ | .acc _ | .vec _ | .tr _ _ | .msix _ _ _ | .pba _ _ | .unassigned =>
    writePlain r page off v s

/-! ### Pairs (R12) -/

/-- A pair whose write acts as one quantity, not as two stored words. -/
def actsWhole (page off : Nat) : Bool :=
  match pageKind page with
  | .so => true
  | .ctx => decide (0x110 ≤ off)
  | .bnd => off == 0x120 || off == 0x124
  | .func _ _ => off == 0x148 || off == 0x14C || decide (0x800 ≤ off)
  | .tr _ _ => true
  | .rac | .vesper | .power | .rel | .host | .mem | .upd | .cal | .red | .ick | .txn | .mdma | .edge _ | .ctl _ | .sch _ | .eq _
  | .arr _ | .acc _ | .vec _ | .cdma _ | .ts _ _ | .msix _ _ _ | .pba _ _ | .unassigned => false

/-- The tile register and word at an offset of a core's tile-register page j (R182). -/
def tregAt (j : Fin 4) (off : Nat) : Nat × Nat := (64 * j.val + (off - 0x100) / 0x20, (off - 0x100) % 0x20 / 4)

/-- A pair that acts as one quantity is written: `off` is its low word's. Two words of a tile register are staged together. -/
def writeWhole (r : Req) (page off v : Nat) (s : State) : State :=
  match pageKind page with
  | .so => if off = 0x108 then objSet (soSel s r) (BitVec.ofNat 64 v) s else objAdd (soSel s r) (BitVec.ofNat 64 v) s
  | .ctx => writeCtxSeed r v s
  | .bnd => writeBndStep r true v s
  | .func p f => if off = 0x148 then writeMwbase p f v s else ringDoorbell p f ((off - 0x800) / 8) (BitVec.ofNat 64 v) s
  | .tr c j =>
    writeTreg c (tregAt j off).1 ((tregAt j off).2 + 1) (v / 2 ^ 32) (writeTreg c (tregAt j off).1 (tregAt j off).2 (v % 2 ^ 32) s)
  | .rac | .vesper | .power | .rel | .host | .mem | .upd | .cal | .red | .ick | .txn | .mdma | .edge _ | .ctl _ | .sch _ | .eq _
  | .arr _ | .acc _ | .vec _ | .cdma _ | .ts _ _ | .msix _ _ _ | .pba _ _ | .unassigned => s

/-- A pair that is only stored is written in both words at once. -/
def storePair (bank page off v : Nat) (s : State) : State :=
  storeWord bank page (off + 4) (v / 2 ^ 32) (storeWord bank page off (v % 2 ^ 32) s)

/-- A 64-bit write of a pair that is only stored, judged once by its block's chapter. -/
def writeStored (r : Req) (page off v : Nat) (s : State) : State :=
  let store := storePair (wordBank s r page off) page off v
  match pageKind page with
  | .ts c j =>
    let n := 32 * j.val + (off - 0x100) / 0x40
    let st := (slotOf (s.core c) n).state
    if st ≠ 0 ∧ st ≠ 5 then logSlotwr c n s else store s
  | .upd => if (lyrGet s (updSel s r)).state ≠ 0 then logLyrwr (updSel s r) s else store s
  | .red => if redOpen s r off v then store s else logRcfgwr s
  | .func p f => if watchCount f ≤ watchSel s p f then logRac 5 page off true true r v s else store s
  | .mdma => whenUnpaced none off store s
  | .cdma c => whenUnpaced (some c) off store s
  | .rac | .vesper | .power | .rel | .host | .mem | .bnd | .so | .ctx | .cal | .ick | .txn | .edge _ | .ctl _ | .sch _
  | .eq _ | .arr _ | .acc _ | .vec _ | .tr _ _ | .msix _ _ _ | .pba _ _ | .unassigned => store s

/-- The word of a tile-register page; none on another page. -/
def tregWord (page off : Nat) : Option (CoreId × Nat × Nat) :=
  match pageKind page with
  | .tr c j => some (c, tregAt j off)
  | .rac | .vesper | .power | .rel | .host | .mem | .upd | .bnd | .so | .ctx | .cal | .red | .ick | .txn | .mdma | .edge _
  | .ctl _ | .sch _ | .eq _ | .arr _ | .acc _ | .vec _ | .cdma _ | .ts _ _ | .func _ _ | .msix _ _ _ | .pba _ _
  | .unassigned => none

/-- The high word of a pair is written alone: with the low word that the requester wrote before, else the one that
stands (R12; DEDUCED, log entry 35). A tile register's staged low word then stands as it is. -/
def commitHeld (r : Req) (page off v : Nat) (s : State) : State :=
  let key := rkey (reqBank r) page (off - 4)
  match mfind s.heldLow key with
  | some w => writeWhole r page (off - 4) (w.toNat + 2 ^ 32 * v) { s with heldLow := mdel s.heldLow key }
  | none =>
    match tregWord page off with
    | some (c, t, w) => writeTreg c t w v s
    | none => writeWhole r page (off - 4) (regNow s r page (off - 4) + 2 ^ 32 * v) s

/-- A write of a register word, or of a pair, that has passed checks 1 to 5. -/
def performWrite (r : Req) (page off : Nat) (wide : Bool) (v : Nat) (s : State) : State :=
  let k := (regAt page off).1
  if wide then
    if actsWhole page off then writeWhole r page off v s
    else if k = 3 then writePageWord r page (off + 4) (v / 2 ^ 32) (writePageWord r page off (v % 2 ^ 32) s)
    else writeStored r page off v s
  else if off < 0x100 ∧ hasHeader page then writeHeader r page off (v % 2 ^ 32) s
  else if actsWhole page off then
    if k = 1 then { s with heldLow := mset s.heldLow (rkey (reqBank r) page off) (BitVec.ofNat 32 v) }
    else if k = 2 then commitHeld r page off (v % 2 ^ 32) s
    else writePageWord r page off (v % 2 ^ 32) s
  else writePageWord r page off (v % 2 ^ 32) s

/-- A write is performed; readiness, which rests on the boundary and the reduction page, is judged after one of theirs (R385). -/
def applyWrite (r : Req) (page off : Nat) (wide : Bool) (v : Nat) (s : State) : State :=
  let s := performWrite r page off wide v s
  if page = bndPage ∨ page = redPage then judgeReadiness s else s

/-! ### Check 2: hosts (R432, R437) -/

/-- A function's write of a module-wide channel's own registers is refused (R432). (DEDUCED, log entry 75.) -/
def denyChannel (s : State) (p : Fin 2) (f : Fin 65) (off v : Nat) : Bool :=
  let k : Fin 8 := Fin.ofNat 8 (if off < 0x500 then (off - 0x100) / 0x80 else (off - 0x500) / 0x40)
  let o := if off < 0x500 then (off - 0x100) % 0x80 else 0
  let ch := s.chan (wideChan k)
  let ctx := if o = 0x6C then bitsOf v 13 0 else fieldOf s 0 0x014 (dmaOff (wideChan k) 0x6C) 13 0
  let obj := if o = 0x60 then bitsOf v 16 0 else fieldOf s 0 0x014 (dmaOff (wideChan k) 0x60) 16 0
  ch.active.isSome || ch.shadow.isSome || !funcQualifies s p f ctx || !objGranted s p f obj ||
    (o == 0x70 && !featureOn s p f 5)

/-- The offset is one of a module-wide channel's per-function registers. -/
def channelOwn (off : Nat) : Bool :=
  let o := (off - 0x100) % 0x80
  decide (0x500 ≤ off ∧ off < 0x700) ||
    (decide (0x100 ≤ off ∧ off < 0x500) && (o == 0x60 || o == 0x64 || o == 0x6C || o == 0x70))

/-- A function's write is refused: before negotiation it reaches only its own pages; then by the class of the page and by the
features that registers need. -/
def hostDenied (s : State) (p : Fin 2) (f : Fin 65) (page off v : Nat) : Bool :=
  let ready := bitOf (funcWord s p f 0x140) 0
  let shared := !(f.val == 0 && portAdmin s p)
  match pageKind page with
  | .func _ _ =>
    (ready && decide (0x120 ≤ off ∧ off < 0x140)) || (off == 0x184 && f.val == 0 && !featureOn s p f 2) ||
      ((off == 0x148 || off == 0x14C) && !featureOn s p f 4)
  | .msix _ _ _ => false
  | .pba _ _ => false
  | .ts _ _ => !ready
  | .sch _ => !ready
  | .ctx => !ready
  | .mem => !ready
  | .rel => !ready || (shared && !(off == 0x124 || off == 0x134 || off == 0x138))
  | .txn =>
    !ready || (if 0x110 ≤ off ∧ off < 0x12C then off == 0x128 && !featureOn s p f 6 else shared)
  | .mdma => !ready || (if channelOwn off then denyChannel s p f off v else shared)
  | .rac | .vesper | .power | .host | .upd | .bnd | .so | .cal | .red | .ick | .edge _ | .ctl _ | .eq _ | .arr _ | .acc _ | .vec _
  | .cdma _ | .tr _ _ | .unassigned => !ready || shared

/-! ### The checks in order (R504) -/

/-- The fields that a write covers, lowest first. -/
def coveredFields (page off : Nat) (wide : Bool) : List Fld :=
  (regAt page off).2 ++ (if wide then (regAt page (off + 4)).2 else [])

/-- Check 5 keeps a field as it is: RO, or RWL while EN is set. -/
def fieldFixed (s : State) (page : Nat) (x : Fld) : Bool := x.acc == .ro || (x.acc == .rwl && pageEn s page)

/-- Checks 3 to 5: the flag of the register-access page under which a write is discarded. -/
def pageRefusal (s : State) (page off : Nat) (wide : Bool) : Option Nat :=
  let fs := coveredFields page off wide
  match fs with
  | [] => some 1
  | x :: _ =>
    if hasHeader page ∧ bitOf (rawWord s 0 page 0x00C) 8 ∧ off ≠ 0x00C then some 4
    else if fs.all (fieldFixed s page) ∧ !debugWord s page off ∧ !reservedCount page off then
      some (if x.acc = .ro then 2 else 3)
    else none

/-- What a write that checks 1 to 5 discard does instead; none when it goes on. -/
def writeRefused (r : Req) (page off : Nat) (wide : Bool) (v : Nat) (s : State) : Option State :=
  if !shapeOk page off wide then some (logRac 0 page off true wide r v s)
  else
    let denied := match r with
      | .func p f => hostDenied s p f page off v
      | .core _ => false
      | .vesper => false
    if denied then
      some (match r with
        | .func p f => logHostdeny p f (windowOff p f page off) s
        | .core _ => s
        | .vesper => s)
    else
      let a := reachPage r page s
      if !a.1 then some a.2 else (pageRefusal a.2 page off wide).map (fun k => logRac k page off true wide r v a.2)

/-- A register write, judged by R504. A reserved counter ignores it (R6); Vesper's may wait for
Meridian (R471). (DESIGN CHOICE, log entry 7.) -/
def regWrite (r : Req) (page off : Nat) (wide : Bool) (v : Nat) (s : State) : State :=
  if shapeOk page off wide && vesperWaits r page s then
    holdVesper { path := none, page := page, off := off, wide := wide, value := some v } s
  else match writeRefused r page off wide v s with
  | some t => t
  | none =>
    let s := (reachPage r page s).2
    if reservedCount page off then s else applyWrite r page off wide v s

end Sys2Proof.Machine
end

