-- ==== Sys2Proof/Machine/PageRows.lean ====
section
/-! DEFINITION. The commands that are a write of one register of a Meridian page: task slots and the scheduler (R204 to R206, R225),
tile registers (R184), instruction pages (R173), calibration (R92), detached transfers (R275, R276), ports and routes
(R333, R347), remote operations (R375). Each reaches its page only while Meridian is in RUN (R20, R431, R471). -/
namespace Sys2Proof.Machine

/-- A requester reaches the pages of Meridian: Meridian is in RUN, or the requester is a control core of it. -/
def reaches (r : Req) (s : State) : Bool :=
  match r with
  | .core _ => true
  | .func _ _ => s.power.meridian == 2
  | .vesper => s.power.meridian == 2

/-- A write of a Meridian register that has passed the checks of R504: performed when the page is reached. Else a function's is
discarded with MERIDOFF (R431) and Vesper's waits (R471). -/
def meridianWrite (r : Req) (page off v : Nat) (act : State → State) (s : State) : State :=
  if reaches r s then act s
  else match r with
    | .func p f => logMeridoff p f s
    | .vesper => holdVesper { path := none, page := page, off := off, wide := false, value := some v } s
    | .core _ => s

/-! ### Tile registers and task slots -/

/-- A write that reaches TR_EB, with the word of TR_EA that the requester's low-word write holds (R12, R184). -/
def execTrCommit (r : Req) (c : CoreId) (t : BitVec 8) (v : W32) (s : State) : Host.Outcome State Fault Refusal :=
  .next (meridianWrite r (trPage c t.toNat) (trOff t.toNat + 0x1C) v.toNat
    (commitHeld r (trPage c t.toNat) (trOff t.toNat + 0x1C) v.toNat) s)

/-- SCH_ARM. -/
def execSchArm (r : Req) (c : CoreId) (slot : BitVec 10) (s : State) : Host.Outcome State Fault Refusal :=
  .next (meridianWrite r (coreP c 1) 0x100 slot.toNat (armSlot r c slot.toNat) s)

/-- A slot's word is written. -/
def execSlotWrite (r : Req) (c : CoreId) (slot : BitVec 10) (word : Fin 16) (v : W32) (s : State) :
    Host.Outcome State Fault Refusal :=
  .next (meridianWrite r (tsPage c slot.toNat) (tsOff slot.toNat + 4 * word.val) v.toNat
    (writeSlot r c slot.toNat word.val v.toNat) s)

/-- SCH_CANCEL. -/
def execSchCancel (r : Req) (c : CoreId) (slot : BitVec 10) (s : State) : Host.Outcome State Fault Refusal :=
  .next (meridianWrite r (coreP c 1) 0x104 slot.toNat (writeCancel c slot.toNat) s)

/-! ### Instruction pages -/

/-- A request for OPEN. -/
def execReqopen (r : Req) (c : CoreId) (page : Fin 4) (s : State) : Host.Outcome State Fault Refusal :=
  .next (meridianWrite r (coreP c 0) 0x10C (page.val + 2 ^ 8) (pageRequest c page.val true false) s)

/-- A request for READY. -/
def execReqready (r : Req) (c : CoreId) (page : Fin 4) (s : State) : Host.Outcome State Fault Refusal :=
  .next (meridianWrite r (coreP c 0) 0x10C (page.val + 2 ^ 9) (pageRequest c page.val false true) s)

/-! ### Calibration -/

/-- CAL_CFG written. -/
def execCalCfgWrite (r : Req) (v : W32) (s : State) : Host.Outcome State Fault Refusal :=
  .next (meridianWrite r calPage 0x104 v.toNat (writeCalCfg r v.toNat) s)

/-- CAL_SEED written. -/
def execCalSeedWrite (r : Req) (v : W32) (s : State) : Host.Outcome State Fault Refusal :=
  .next (meridianWrite r calPage 0x108 v.toNat (writeCalSeed r v.toNat) s)

/-- CAL_SEED written with CLRHIST set. -/
def execClrhist (r : Req) (v : W32) (s : State) : Host.Outcome State Fault Refusal :=
  .next (meridianWrite r calPage 0x108 (putBits v.toNat 31 31 1) (writeCalSeed r (putBits v.toNat 31 31 1)) s)

/-! ### Detached transfers -/

/-- DMA_START with START, and ABORT before it when both are set (R276). -/
def execDetachedStart (r : Req) (k : Fin 8) (abortToo : Bool) (s : State) : Host.Outcome State Fault Refusal :=
  .next (meridianWrite r 0x014 (dmaOff (wideChan k) 0x70) (if abortToo then 3 else 1)
    (fun s => startWrite r k (if abortToo then abortWrite k s else s)) s)

/-- DMA_START with ABORT. -/
def execDetachedAbort (r : Req) (k : Fin 8) (s : State) : Host.Outcome State Fault Refusal :=
  .next (meridianWrite r 0x014 (dmaOff (wideChan k) 0x70) 2 (abortWrite k) s)

/-! ### Ports and routes -/

/-- PRT_CTRL of a port is written with EN and TXEQ. -/
def execPortEnable (r : Req) (p : PortId) (on : Bool) (txeq : BitVec 4) (s : State) : Host.Outcome State Fault Refusal :=
  let v := (if on then 1 else 0) + txeq.toNat * 16
  .next (meridianWrite r (prtPage p) (prtOff p 0) v (writePrtCtrl p v) s)

/-- RETRAIN is written, the other fields of PRT_CTRL as they stand. -/
def execRetrain (r : Req) (p : PortId) (s : State) : Host.Outcome State Fault Refusal :=
  let v := putBits (rawWord s 0 (prtPage p) (prtOff p 0)) 1 1 1
  .next (meridianWrite r (prtPage p) (prtOff p 0) v (writePrtCtrl p v) s)

/-- ICK_RTENTRY is written. -/
def execIckRtentryWrite (r : Req) (v : W32) (s : State) : Host.Outcome State Fault Refusal :=
  .next (meridianWrite r ickPage 0x118 v.toNat (writeRtentry r v.toNat) s)

/-- ICK_MODID is written: LOCKED while the Ickor page is enabled (R14, R328). -/
def execIckModidWrite (r : Req) (v : W32) (s : State) : Host.Outcome State Fault Refusal :=
  .next (meridianWrite r ickPage 0x100 v.toNat (fun s =>
    if pageEn s ickPage then logRac 3 ickPage 0x100 true false r v.toNat s else storeWord 0 ickPage 0x100 v.toNat s) s)

/-! ### Remote operations -/

/-- A write of TXN_ROPCMD. -/
def ropWrite (r : Req) (op : Nat) (held : Bool) (s : State) : State :=
  meridianWrite r txnPage 0x128 (op + if held then 16 else 0) (ropCommand r op held) s

/-- A remote fetch-and-add. -/
def execRopFadd (r : Req) (held : Bool) (s : State) : Host.Outcome State Fault Refusal := .next (ropWrite r 1 held s)

/-- A remote swap. -/
def execRopSwap (r : Req) (held : Bool) (s : State) : Host.Outcome State Fault Refusal := .next (ropWrite r 2 held s)

/-- A remote compare-and-swap. -/
def execRopCas (r : Req) (held : Bool) (s : State) : Host.Outcome State Fault Refusal := .next (ropWrite r 3 held s)

/-- A remote maximum. -/
def execRopUmax (r : Req) (held : Bool) (s : State) : Host.Outcome State Fault Refusal := .next (ropWrite r 4 held s)

/-- A remote minimum. -/
def execRopUmin (r : Req) (held : Bool) (s : State) : Host.Outcome State Fault Refusal := .next (ropWrite r 5 held s)

/-- A SOOP add. -/
def execRopSoopAdd (r : Req) (held : Bool) (s : State) : Host.Outcome State Fault Refusal := .next (ropWrite r 8 held s)

/-- A SOOP set. -/
def execRopSoopSet (r : Req) (held : Bool) (s : State) : Host.Outcome State Fault Refusal := .next (ropWrite r 9 held s)

/-- A write of TXN_ROPCMD as a word: the reserved OPs and the other skips of R375. -/
def execRopReserved (r : Req) (v : W32) (s : State) : Host.Outcome State Fault Refusal :=
  .next (ropWrite r (bitsOf v.toNat 3 0) (bitOf v.toNat 4) s)

end Sys2Proof.Machine
end

