-- ==== Sys2Proof/Machine/VectorMem.lean ====
section
/-! DEFINITION. Vector commands that reach tile memory, read the accumulators, convert, or draw: VLD and VST (R138, R196),
QUANT (R41), QGRAD (R306), ACCRD (R148, R149), CVT (R138), RAND and RKEY (R152, R153). -/
namespace Sys2Proof.Machine

/-- The lines of a region that a command writes receive the tag it captured (R212). -/
def tagWritten (c : CoreId) (e : QEntry) (f : VCmd) (r : TReg) (s : State) : State :=
  match mfind e.wcap f.tr with
  | none => s
  | some g => modCore c (setTags f.tr g (reachedLines r (firstElem f r) (moved f))) s

/-! ### VLD and VST -/

/-- The register element of a region element (R138, R43). -/
def loadElem (s : State) (c : CoreId) (r : TReg) (lay u v : Nat) : Nat :=
  if r.blocks then fenc 23 (regionVal s c r u v)
  else
    let x := plainElem s c r u v
    if r.fmt = 5 ∨ r.fmt = 9 ∨ (r.fmt = 4 ∧ lay = 2) then x
    else if r.fmt = 8 then codeOf 32 (signedOf 16 x)
    else fenc 23 (plainVal r.fmt x)

/-- VLD: tags, marks, then the elements into registers. -/
def vldAct (c : CoreId) (f : VCmd) (e : QEntry) (s : State) : State :=
  let r := treg s c f.tr
  if !vldTagsOk s c e f then scheduleFault c 1 1 e.idx f.tr s
  else
    let spots := (List.range (moved f)).map (fun k => ((firstElem f r + k) / r.v, (firstElem f r + k) % r.v))
    match firstPoison s (spots.flatMap (fun p => elemBytes c r p.1 p.2)) with
    | some a => consumeTask c a s
    | none =>
      let es := spots.map (fun p => loadElem s c r f.lay p.1 p.2)
      beginVec c e none (modCore c (setVregs f.vd (joinLay f.lay es)) s)

/-- Element codes in row-major order from a linear index, one piece of bytes for each run within a row. -/
def rowRuns (c : CoreId) (r : TReg) : Nat → Nat → List Nat → List (Nat × List Byte)
  | 0, _, _ => []
  | n + 1, lo, es =>
    match es with
    | [] => []
    | a :: t =>
      let m := r.v - lo % r.v
      let bytes := ((a :: t).take m).flatMap (fun x => bytesOfNat r.width x)
      (spaceBase c r.space + r.elemOff (lo / r.v) (lo % r.v), bytes) :: rowRuns c r n (lo + m) ((a :: t).drop m)

/-- Element codes stored in row-major order from a linear index: one clean write, whose lines lose their marks where its
pieces together cover them (R411). -/
def storeRuns (c : CoreId) (r : TReg) (lo : Nat) (es : List Nat) (s : State) : State :=
  let ps := rowRuns c r es.length lo es
  clearWhole (ps.map (fun p => (p.1, p.2.length))) (forAll (fun p s => taskWrite c p.1 p.2 s) ps s)

/-- VST: elements stored unchanged. -/
def vstAct (c : CoreId) (f : VCmd) (e : QEntry) (s : State) : State :=
  let r := treg s c f.tr
  let es := velems (s.core c) f.va f.c f.lay
  beginVec c e none (tagWritten c e f r (storeRuns c r (firstElem f r) es s))

/-! ### Quantisation -/

/-- The order of the largest finite magnitude (R81). -/
def orderOf (xs : List FVal) : Option Int :=
  let m := maxMag xs
  if m.1 = 0 then none else some ((Nat.log2 m.1 : Int) + m.2 + 1)

/-- SAT or INFLOSS with an address and an element index (R157). -/
def logBlock (c : CoreId) (flag a : Nat) (elem : Option Nat) (s : State) : State :=
  match elem with
  | none => s
  | some i => logEvent (coreP c 5) flag [a % 2 ^ 32, a / 2 ^ 32 % 2 ^ 12, i] s

/-- A block written with its events (R33, R41, R46), SAT before INFLOSS, an order that no rule states (DESIGN CHOICE, log entry
96). -/
def writeBlock (c : CoreId) (r : TReg) (a b : Nat) (x : Block) (s : State) : State :=
  let base := spaceBase c r.space
  let s := taskWrite c (base + r.mantOff a b) (packMants (blockBits r.fmt) x.ms) s
  let ea := base + r.expOff a b
  let s := taskWrite c ea [BitVec.ofNat 8 x.e] s
  logBlock c 1 ea x.infloss (logBlock c 0 ea x.sat s)

/-- The blocks of n values placed row-major from linear index lo; whether any saturated. Their events come in rising order of
lines and blocks, which no rule states (DESIGN CHOICE, log entry 96). -/
def quantBlocks (c : CoreId) (r : TReg) (lo : Nat) (xs : List FVal) (given : Option Nat) :
    List Nat → State × Bool → State × Bool
  | [], p => p
  | key :: t, p =>
    let a := key / 2 ^ 20
    let b := key % 2 ^ 20
    let vals := (List.range 32).map fun i =>
      let q := blockSpot r a b i
      if q.1 < r.u ∧ q.2 < r.v then xs.getD (q.1 * r.v + q.2 - lo) (.fin false 0 0) else .fin false 0 0
    let x := toBlock (blockBits r.fmt) true given vals
    quantBlocks c r lo xs given t (writeBlock c r a b x p.1, p.2 || x.sat.isSome)

/-- The pieces of a region that its blocks take: mantissas and exponent bytes (R33). -/
def blockPieces (c : CoreId) (r : TReg) (keys : List Nat) : List (Nat × Nat) :=
  keys.flatMap (fun key =>
    [(spaceBase c r.space + r.mantOff (key / 2 ^ 20) (key % 2 ^ 20), r.blockBytes),
      (spaceBase c r.space + r.expOff (key / 2 ^ 20) (key % 2 ^ 20), 1)])

/-- A storage quantisation of values into the region of a command (R41, R79); lines that its blocks together cover lose their
marks (R411). -/
def quantise (c : CoreId) (f : VCmd) (e : QEntry) (xs : List FVal) (s : State) : State :=
  let r := treg s c f.tr
  let lo := firstElem f r
  let given := if f.exp then some (if f.cal then calEbyte s f.slot (taskStep s c) else f.ebyte) else none
  let keys := touchedBlocks r lo (moved f)
  let p := quantBlocks c r lo xs given keys (s, false)
  beginVec c e (if f.cal then some (f.slot, orderOf xs, p.2) else none)
    (tagWritten c e f r (clearWhole (blockPieces c r keys) p.1))

/-- QUANT: FP32 registers into a block format. -/
def quantAct (c : CoreId) (f : VCmd) (e : QEntry) (s : State) : State :=
  quantise c f e ((vregs (s.core c) f.va f.c).map (fdec 23)) s

/-- One gradient element (R306): its INT16 and whether it clamped. -/
def gradElem (ebyte : Nat) (x : FVal) : Int × Bool :=
  match x with
  | .nan => (-32768, false)
  | .inf _ => (-32768, false)
  | .fin neg m e =>
    let q := roundAt true m (e + (15 - ((ebyte : Int) - 127)))
    let k := min q 32767
    (if neg then -(k : Int) else (k : Int), decide (32767 < q))

/-- SAT of each run of 32 in which a clamp occurred, with the address of the run's first element (R306). -/
def gradEvents (c : CoreId) (r : TReg) : Nat → List (List (Int × Bool)) → State → State
  | _, [], s => s
  | lo, run :: t, s =>
    let a := spaceBase c r.space + r.elemOff (lo / r.v) (lo % r.v)
    gradEvents c r (lo + 32) t (logBlock c 0 a (run.findIdx? (fun q => q.2)) s)

/-- QGRAD: FP32 registers into INT16 gradient elements. -/
def qgradAct (c : CoreId) (f : VCmd) (e : QEntry) (s : State) : State :=
  let r := treg s c f.tr
  let ebyte := if f.cal then calEbyte s f.slot (taskStep s c) else f.ebyte
  let xs := (vregs (s.core c) f.va f.c).map (fdec 23)
  let qs := xs.map (gradElem ebyte)
  let lo := firstElem f r
  let s := storeRuns c r lo (qs.map (fun q => codeOf 16 q.1)) s
  let s := gradEvents c r lo (chunks 32 qs.length qs) (tagWritten c e f r s)
  beginVec c e (if f.cal then some (f.slot, orderOf xs, qs.any (fun q => q.2)) else none) s

/-! ### Reading the accumulators -/

/-- A cell as a value: its reading on the group's anchor (R44, R59, R61). -/
def cellVal (x : Group) (cell : Cell) : FVal :=
  match cell.read x.mode with
  | .nan => .nan
  | .inf n => .inf n
  | .empty n => .inf n
  | .fin v => FVal.ofDyad false ⟨v, x.anchor⟩

/-- The cells an ACCRD reads, in row-major order. -/
def accCells (k : Core) (f : VCmd) : List Cell :=
  (List.range (2048 * f.c)).map (fun q => cellOf k f.g (f.i0 + q / 256) (q % 256))

/-- ACCRD into registers or a block region (R148, R149). -/
def accrdRead (c : CoreId) (f : VCmd) (e : QEntry) (s : State) : State :=
  let k := s.core c
  let x := groupOf k f.g
  let cells := accCells k f
  let s := bumpPair (coreP c 5) 0x110 (8 * f.c) s
  if f.dest = 2 then quantise c f e (cells.map (cellVal x)) s
  else if f.dest = 1 then
    beginVec c e none (modCore c (setVregs f.vd (cells.map (fun y => y.indexRead x.mode))) s)
  else
    let vs := cells.map (cellVal x)
    let s := modCore c (setVregs f.vd (vs.map (fenc 23))) s
    beginVec c e none (if vs.any (fovf 23) then logEvent (coreP c 5) 2 [e.idx] s else s)

/-- ACCRD: a poisoned cell among those it reads is consumed (R413). -/
def accrdAct (c : CoreId) (f : VCmd) (e : QEntry) (s : State) : State :=
  match firstPoison s [(cellAddr c (cellKey f.g f.i0 0), 16 * (2048 * f.c))] with
  | some a => consumeTask c a s
  | none => accrdRead c f e s

/-! ### CVT, RAND, RKEY -/

/-- CVT (R43, R45, R138). -/
def cvtAct (c : CoreId) (f : VCmd) (e : QEntry) (s : State) : State :=
  let es := velems (s.core c) f.va f.c f.lay
  if f.lay = 0 then
    let ws := pairHalves (es.map (fun x => fenc 7 (fdec 23 x))) ++ (if f.c % 2 = 1 then List.replicate 1024 0 else [])
    let s := modCore c (setVregs f.vd ws) s
    beginVec c e none (if es.any (fun x => fovf 7 (fdec 23 x)) then logEvent (coreP c 5) 2 [e.idx] s else s)
  else beginVec c e none (modCore c (setVregs f.vd (es.map (fun x => fenc 23 (fdec 7 x)))) s)

/-- A drawn value in the form of a mode (R152). -/
def randForm (mode : Nat) (h : W64) : Nat :=
  if mode = 0 then unitCode (h >>> 40).toNat
  else if mode = 1 then unitCode ((h >>> 41).toNat * 2 + 1)
  else (h >>> 32).toNat

/-- RAND: every lane draws once for each register, registers ascending (R152). -/
def randAct (c : CoreId) (f : VCmd) (e : QEntry) (s : State) : State :=
  let v := (s.core c).vec
  let ws := (List.range (2048 * f.c)).map fun q =>
    randForm f.sub (drawAt (laneKey v.genSeed v.genKey (q % 2048)) (v.genCount + q / 2048))
  let s := modCore c (fun k =>
    let k := setVregs f.vd ws k
    { k with vec := { k.vec with genCount := (k.vec.genCount + f.c) % 2 ^ 64 } }) s
  beginVec c e none (bumpPair (coreP c 5) 0x120 f.c s)

/-- RKEY: every lane keyed afresh (R153). -/
def rkeyCore (f : VCmd) (k : Core) : Core :=
  let ws := vregs k f.va 1
  { k with vec := { k.vec with genKey := BitVec.ofNat 64 (ws.getD 0 0 + 2 ^ 32 * ws.getD 1 0), genCount := 0 } }

end Sys2Proof.Machine
end

