-- ==== Sys2Proof/Machine/VectorOps.lean ====
section
/-! DEFINITION. The vector commands of R138, one meaning each. -/
namespace Sys2Proof.Machine

/-- The scalar as every element of a layout sees it (R133). -/
def scalarElem (f : VCmd) : Nat := if f.lay = 2 then f.scalar % 65536 else f.scalar

/-- Elementwise operation (R138): g of the layout's fraction width and the elements a, b and third operand of each place. -/
def elemAct (c : CoreId) (g : VCmd → Nat → Nat → Nat → Nat → Nat) (f : VCmd) (e : QEntry) (s : State) : State :=
  let k := s.core c
  let xs := velems k f.va f.c f.lay
  let ys := if f.ssel then xs.map (fun _ => scalarElem f) else velems k f.vb f.c f.lay
  let zs := velems k f.vc f.c f.lay
  let es := (xs.zip (ys.zip zs)).map (fun p => g f (layFb f.lay) p.1 p.2.1 p.2.2)
  vecWrite c (fun f => setVregs f.vd (joinLay f.lay es)) f e s

/-- Signed value of an INT32 code. -/
def i32 (x : Nat) : Int := signedOf 32 x

/-- A signed integer condition (R137, R138). -/
def icmp (cc : Nat) (a b : Int) : Bool :=
  if cc = 0 then a == b else if cc = 1 then a != b else if cc = 2 then decide (a < b) else if cc = 3 then decide (a ≤ b)
  else if cc = 4 then decide (b < a) else decide (b ≤ a)

/-- 1 or 0. -/
def oneIf (b : Bool) : Nat := if b then 1 else 0

/-- Vector NOP: it completes when taken (R140). -/
def execVectorNop (c : CoreId) (s : State) : Host.Outcome State Fault Refusal :=
  .next (takeVector c 0 (fun _ e s => completeNow c .vector e (bumpPair (coreP c 5) 0x108 1 s)) s)

/-- ADD (R134, R136). -/
def execVAdd (c : CoreId) (s : State) : Host.Outcome State Fault Refusal :=
  .next (takeVector c 0x01 (elemAct c (fun _ fb a b _ => fadd fb a b)) s)

/-- SUB (R134, R136). -/
def execVSub (c : CoreId) (s : State) : Host.Outcome State Fault Refusal :=
  .next (takeVector c 0x02 (elemAct c (fun _ fb a b _ => fsub fb a b)) s)

/-- MUL (R134, R136). -/
def execVMul (c : CoreId) (s : State) : Host.Outcome State Fault Refusal :=
  .next (takeVector c 0x03 (elemAct c (fun _ fb a b _ => fmul fb a b)) s)

/-- FMA: a × b + c rounded once (R134, R136). -/
def execVFma (c : CoreId) (s : State) : Host.Outcome State Fault Refusal :=
  .next (takeVector c 0x04 (elemAct c (fun _ fb a b z => ffma fb a b z)) s)

/-- MIN (R134). -/
def execVMin (c : CoreId) (s : State) : Host.Outcome State Fault Refusal :=
  .next (takeVector c 0x05 (elemAct c (fun _ fb a b _ => fminmax false fb a b)) s)

/-- MAX (R134). -/
def execVMax (c : CoreId) (s : State) : Host.Outcome State Fault Refusal :=
  .next (takeVector c 0x06 (elemAct c (fun _ fb a b _ => fminmax true fb a b)) s)

/-- ABS (R138). -/
def execVAbs (c : CoreId) (s : State) : Host.Outcome State Fault Refusal :=
  .next (takeVector c 0x07 (elemAct c (fun _ fb a _ _ => fabs fb a)) s)

/-- NEG (R138). -/
def execVNeg (c : CoreId) (s : State) : Host.Outcome State Fault Refusal :=
  .next (takeVector c 0x08 (elemAct c (fun _ fb a _ _ => fneg fb a)) s)

/-- DIV (R135). -/
def execVDiv (c : CoreId) (s : State) : Host.Outcome State Fault Refusal :=
  .next (takeVector c 0x09 (elemAct c (fun _ fb a b _ => fdiv fb a b)) s)

/-- SQRT (R135). -/
def execVSqrt (c : CoreId) (s : State) : Host.Outcome State Fault Refusal :=
  .next (takeVector c 0x0A (elemAct c (fun _ fb a _ _ => fsqrt fb a)) s)

/-- RCP (R135). -/
def execVRcp (c : CoreId) (s : State) : Host.Outcome State Fault Refusal :=
  .next (takeVector c 0x0B (elemAct c (fun _ fb a _ _ => frcp fb a)) s)

/-- RSQRT (R135). -/
def execVRsqrt (c : CoreId) (s : State) : Host.Outcome State Fault Refusal :=
  .next (takeVector c 0x0C (elemAct c (fun _ fb a _ _ => frsqrt fb a)) s)

/-- EXP2 (R135). -/
def execVExp2 (c : CoreId) (s : State) : Host.Outcome State Fault Refusal :=
  .next (takeVector c 0x0D (elemAct c (fun _ fb a _ _ => fexp2 fb a)) s)

/-- LOG2 (R135). -/
def execVLog2 (c : CoreId) (s : State) : Host.Outcome State Fault Refusal :=
  .next (takeVector c 0x0E (elemAct c (fun _ fb a _ _ => flog2 fb a)) s)

/-- CMP (R134, R138). -/
def execVCmp (c : CoreId) (s : State) : Host.Outcome State Fault Refusal :=
  .next (takeVector c 0x0F (elemAct c (fun f fb a b _ => oneIf (fcmp f.sub fb a b))) s)

/-- SEL (R138). -/
def execVSel (c : CoreId) (s : State) : Host.Outcome State Fault Refusal :=
  .next (takeVector c 0x10 (elemAct c (fun _ _ a b z => if z = 0 then b else a)) s)

/-- MOVS (R138). -/
def execVMovs (c : CoreId) (s : State) : Host.Outcome State Fault Refusal :=
  .next (takeVector c 0x11 (elemAct c (fun f _ _ _ _ => scalarElem f)) s)

/-- IADD (R137). -/
def execVIadd (c : CoreId) (s : State) : Host.Outcome State Fault Refusal :=
  .next (takeVector c 0x20 (elemAct c (fun _ _ a b _ => (a + b) % 2 ^ 32)) s)

/-- ISUB (R137). -/
def execVIsub (c : CoreId) (s : State) : Host.Outcome State Fault Refusal :=
  .next (takeVector c 0x21 (elemAct c (fun _ _ a b _ => (a + 2 ^ 32 - b) % 2 ^ 32)) s)

/-- IMUL (R137). -/
def execVImul (c : CoreId) (s : State) : Host.Outcome State Fault Refusal :=
  .next (takeVector c 0x22 (elemAct c (fun _ _ a b _ => a * b % 2 ^ 32)) s)

/-- AND (R137). -/
def execVAnd (c : CoreId) (s : State) : Host.Outcome State Fault Refusal :=
  .next (takeVector c 0x23 (elemAct c (fun _ _ a b _ => a &&& b)) s)

/-- OR (R137). -/
def execVOr (c : CoreId) (s : State) : Host.Outcome State Fault Refusal :=
  .next (takeVector c 0x24 (elemAct c (fun _ _ a b _ => a ||| b)) s)

/-- XOR (R137). -/
def execVXor (c : CoreId) (s : State) : Host.Outcome State Fault Refusal :=
  .next (takeVector c 0x25 (elemAct c (fun _ _ a b _ => a ^^^ b)) s)

/-- SHL by the low 5 bits (R137). -/
def execVShl (c : CoreId) (s : State) : Host.Outcome State Fault Refusal :=
  .next (takeVector c 0x26 (elemAct c (fun _ _ a b _ => a * 2 ^ (b % 32) % 2 ^ 32)) s)

/-- SHR by the low 5 bits (R137). -/
def execVShr (c : CoreId) (s : State) : Host.Outcome State Fault Refusal :=
  .next (takeVector c 0x27 (elemAct c (fun _ _ a b _ => a / 2 ^ (b % 32))) s)

/-- SAR by the low 5 bits (R137). -/
def execVSar (c : CoreId) (s : State) : Host.Outcome State Fault Refusal :=
  .next (takeVector c 0x28 (elemAct c (fun _ _ a b _ => codeOf 32 (i32 a / 2 ^ (b % 32)))) s)

/-- ICMP (R137, R138). -/
def execVIcmp (c : CoreId) (s : State) : Host.Outcome State Fault Refusal :=
  .next (takeVector c 0x29 (elemAct c (fun f _ a b _ => oneIf (icmp f.sub (i32 a) (i32 b)))) s)

/-- IMIN (R137). -/
def execVImin (c : CoreId) (s : State) : Host.Outcome State Fault Refusal :=
  .next (takeVector c 0x2A (elemAct c (fun _ _ a b _ => if i32 a ≤ i32 b then a else b)) s)

/-- IMAX (R137). -/
def execVImax (c : CoreId) (s : State) : Host.Outcome State Fault Refusal :=
  .next (takeVector c 0x2B (elemAct c (fun _ _ a b _ => if i32 a ≤ i32 b then b else a)) s)

/-- CVT (R138). -/
def execVCvt (c : CoreId) (s : State) : Host.Outcome State Fault Refusal :=
  .next (takeVector c 0x40 (cvtAct c) s)

/-- QUANT (R41, R138). -/
def execVQuant (c : CoreId) (s : State) : Host.Outcome State Fault Refusal :=
  .next (takeVector c 0x41 (quantAct c) s)

/-- QGRAD (R306). -/
def execVQgrad (c : CoreId) (s : State) : Host.Outcome State Fault Refusal :=
  .next (takeVector c 0x42 (qgradAct c) s)

/-- ACCRD (R148, R149). -/
def execVAccrd (c : CoreId) (s : State) : Host.Outcome State Fault Refusal :=
  .next (takeVector c 0x43 (accrdAct c) s)

/-- RSUM (R144). -/
def execVRsum (c : CoreId) (s : State) : Host.Outcome State Fault Refusal :=
  .next (takeVector c 0x50 (rowCmd c 1 (fun _ _ r => rowReduce (fadd 23) 0 r)) s)

/-- RMAX (R144). -/
def execVRmax (c : CoreId) (s : State) : Host.Outcome State Fault Refusal :=
  .next (takeVector c 0x51 (rowCmd c 1 (fun _ _ r => rowReduce (fminmax true 23) codeNinf r)) s)

/-- RMIN (R144). -/
def execVRmin (c : CoreId) (s : State) : Host.Outcome State Fault Refusal :=
  .next (takeVector c 0x52 (rowCmd c 1 (fun _ _ r => rowReduce (fminmax false 23) codePinf r)) s)

/-- RARGMAX (R144). -/
def execVRargmax (c : CoreId) (s : State) : Host.Outcome State Fault Refusal :=
  .next (takeVector c 0x53 (rowCmd c 2 (fun _ _ r => rowArgmax r)) s)

/-- SOFTMAX (R145). -/
def execVSoftmax (c : CoreId) (s : State) : Host.Outcome State Fault Refusal :=
  .next (takeVector c 0x60 (rowCmd c 0 (fun _ f r => rowSoftmax f.n f.scalar r)) s)

/-- LOGSOFTMAX (R146). -/
def execVLogsoftmax (c : CoreId) (s : State) : Host.Outcome State Fault Refusal :=
  .next (takeVector c 0x61 (rowCmd c 0 (fun _ f r => rowLogsoftmax f.n f.scalar r)) s)

/-- LAYERNORM (R147). -/
def execVLayernorm (c : CoreId) (s : State) : Host.Outcome State Fault Refusal :=
  .next (takeVector c 0x62 (rowCmd c 0 (fun k f r => rowNorm true f.n f.scalar (affineOf k f r) r)) s)

/-- RMSNORM (R147). -/
def execVRmsnorm (c : CoreId) (s : State) : Host.Outcome State Fault Refusal :=
  .next (takeVector c 0x63 (rowCmd c 0 (fun k f r => rowNorm false f.n f.scalar (affineOf k f r) r)) s)

/-- SAMPLE (R154, R155). -/
def execVSample (c : CoreId) (s : State) : Host.Outcome State Fault Refusal :=
  .next (takeVector c 0x64 (rowCmd c 2 (fun k f r => sampleRow k f r)) s)

/-- RAND (R152). -/
def execVRand (c : CoreId) (s : State) : Host.Outcome State Fault Refusal :=
  .next (takeVector c 0x70 (randAct c) s)

/-- RKEY (R153). -/
def execVRkey (c : CoreId) (s : State) : Host.Outcome State Fault Refusal :=
  .next (takeVector c 0x71 (vecWrite c rkeyCore) s)

/-- VLD (R138, R196). -/
def execVVld (c : CoreId) (s : State) : Host.Outcome State Fault Refusal :=
  .next (takeVector c 0x80 (vldAct c) s)

/-- VST (R138, R196). -/
def execVVst (c : CoreId) (s : State) : Host.Outcome State Fault Refusal :=
  .next (takeVector c 0x81 (vstAct c) s)

/-- A reserved operation or layout: skipped at its take (R197), with OPSKIP cause 1 (R138, R201 check 8). -/
def execVectorReservedOp (c : CoreId) (s : State) : Host.Outcome State Fault Refusal :=
  .next (takeWhen c .vector (fun e => !vecOpOk (vcmdOf e.word) && vecReady s c e) (fun e s => logVecSkip c e 1 s) s)

/-- The oldest command in execution completes: it is counted, a calibrated one delivers its observation (R81), and its signal
is recorded (R156, R181). -/
def execVectorComplete (c : CoreId) (s : State) : Host.Outcome State Fault Refusal :=
  let k := s.core c
  match k.vec.running with
  | [] => .next s
  | (fl, obs) :: t =>
    let step := taskStep s c
    let s := modCore c (fun k => { k with vec := { k.vec with running := t } }) s
    let s := match obs with
      | none => s
      | some (slot, order, sat) => deliverObs slot step order sat s
    .next (completeFlight c fl 1 (bumpPair (coreP c 5) 0x108 1 s))

end Sys2Proof.Machine
end

