-- ==== Sys2Proof/Machine/Access.lean ====
section
/-! DEFINITION. The commands that access registers (R163, R165, R168, R431, R463, R471, R494 to R504) and the accumulator debug windows
(R74). -/
namespace Sys2Proof.Machine

/-! ### The control core (R163 to R168) -/

/-- An address that is outside the register pages, or not aligned (R165 cause 4). -/
def badReg (a n : Nat) : Bool := decide (a < 0xF0000000000 ∨ 0xF0001000000 ≤ a ∨ a % n ≠ 0)

/-- A register read issues; its value returns later (R167). The task is not sampled (R402). -/
def issueRead (c : CoreId) (op : Nat) (rd rs1 : BitVec 6) (imm : BitVec 12) (wide : Bool) (s : State) : State :=
  whenIssue c (fun s =>
    let a := memAddr (s.core c) rs1 imm
    if badReg a (if wide then 8 else 4) then skipInstr c [rs1.toNat] 4 (wordI op rd.toNat rs1.toNat imm.toNat) s
    else
      modCore c (fun k => unsample { k with ctl := { k.ctl with regWait := some ⟨rd.toNat, a, wide⟩ } })
        (issue c [rs1.toNat] 1 s)) s

/-- A register write issues and is posted: here it reaches its page at once (R168). -/
def issueWrite (c : CoreId) (op : Nat) (rt rs1 : BitVec 6) (imm : BitVec 12) (wide : Bool) (s : State) : State :=
  whenIssue c (fun s =>
    let a := memAddr (s.core c) rs1 imm
    let v := (sget (s.core c) rt.toNat).toNat
    if badReg a (if wide then 8 else 4) then skipInstr c [rs1.toNat] 4 (wordI op rt.toNat rs1.toNat imm.toNat) s
    else
      let s := modCore c nextPc (issue c [rt.toNat, rs1.toNat] 1 s)
      regWrite (.core c) (regPlace a).1 (regPlace a).2 wide (if wide then v else v % 2 ^ 32) s) s

/-- RDREG. -/
def execRdreg (c : CoreId) (rd rs1 : BitVec 6) (imm : BitVec 12) (s : State) : Host.Outcome State Fault Refusal :=
  .next (issueRead c 0x3C rd rs1 imm false s)

/-- RDREG64. -/
def execRdreg64 (c : CoreId) (rd rs1 : BitVec 6) (imm : BitVec 12) (s : State) : Host.Outcome State Fault Refusal :=
  .next (issueRead c 0x3E rd rs1 imm true s)

/-- The value of a register read returns, at most 200 core cycles after its issue, and is written to rd. -/
def execRegreadReturn (c : CoreId) (cycles : Nat) (s : State) : Host.Outcome State Fault Refusal :=
  match (s.core c).ctl.regWait with
  | none => .next s
  | some w =>
    let x := regRead (.core c) (regPlace w.addr).1 (regPlace w.addr).2 w.wide (stallCycles c (min cycles 200 - 1) s)
    .next (modCore c (fun k => nextPc (sset w.rd (BitVec.ofNat 64 x.1) { k with ctl := { k.ctl with regWait := none } })) x.2)

/-- WRREG. -/
def execWrreg (c : CoreId) (rt rs1 : BitVec 6) (imm : BitVec 12) (s : State) : Host.Outcome State Fault Refusal :=
  .next (issueWrite c 0x3D rt rs1 imm false s)

/-- WRREG64. -/
def execWrreg64 (c : CoreId) (rt rs1 : BitVec 6) (imm : BitVec 12) (s : State) : Host.Outcome State Fault Refusal :=
  .next (issueWrite c 0x3F rt rs1 imm true s)

/-! ### Accumulator debug windows (R74) -/

/-- DBGDENY (R71). -/
def logDbgdeny (c : CoreId) (s : State) : State := logEvent (coreP c 4) 6 [] s

/-- The 16 bytes of an entry of the window: a cell, a check cell, or zeros beyond. A group released to FREE shows the cells of
its last result until it is opened again (DESIGN CHOICE, log entry 82); a discarded one shows zeros (R66). -/
def debugEntry (k : Core) (e : Nat) : List Byte :=
  if e < 0x40000 then
    let x := mget Cell.zero k.cells e
    bytesOfNat 8 x.value.toNat ++ bytesOfNat 4 x.state.toNat ++ bytesOfNat 4 x.index.toNat
  else if e < 0x40000 + 2052 then
    let x := mget (⟨0, 0⟩ : CheckLine) k.checks (e - 0x40000)
    bytesOfNat 9 x.sum.toNat ++ bytesOfNat 3 (min x.r (2 ^ 24 - 1)) ++ List.replicate 4 0
  else List.replicate 16 0

/-- A read of the window: what its entry holds from the offset on, while the ACC scope is open (R460); else zeros and
DBGDENY. -/
def readDebug (c : CoreId) (off : Nat) (s : State) : State :=
  let bs := (debugEntry (s.core c) (off / 16)).drop (off % 16)
  if scopeOpen s 0 then { s with out := s.out ++ [.debugCell c.val off bs] }
  else logDbgdeny c { s with out := s.out ++ [.debugCell c.val off (List.replicate bs.length 0)] }

/-- A read of the debug window. -/
def execAccDebugRead (c : CoreId) (off : BitVec 23) (s : State) : Host.Outcome State Fault Refusal :=
  .next (readDebug c off.toNat s)

/-- A write to the debug window is discarded and logged in every mode. -/
def execAccDebugWrite (c : CoreId) (_off : BitVec 23) (_v : W32) (s : State) : Host.Outcome State Fault Refusal :=
  .next (logDbgdeny c s)

/-! ### Vendor-defined messages (R463) -/

/-- The response: status and, for a read, the value. -/
def vendorAnswer (path : Path) (refused : Bool) (value : List Byte) (s : State) : State :=
  mail path 0x7F ((if refused then 1 else 0) :: value) s

/-- Vesper serves vendor-defined messages on a path; recovery does not offer them (R448). -/
def vendorServes (s : State) (path : Path) : Bool := mctpServes s path && !s.vesper.recovery

/-- A read as Vesper: refused for an address that is no register's, and for a misaligned one, which reads zero and logs BADACC
(R11, R463); one that waits for Meridian is answered then.
(DEDUCED, log entry 67.) -/
def vendorRead (path : Path) (a : Nat) (s : State) : State :=
  if !vendorServes s path then s
  else if a < 0xF0000000000 ∨ 0xF0001000000 ≤ a then vendorAnswer path true (bytesOfNat 4 0) s
  else if a % 4 ≠ 0 then
    let x := regRead .vesper (regPlace a).1 (regPlace a).2 false s
    vendorAnswer path true (bytesOfNat 4 x.1) x.2
  else if vesperWaits .vesper (regPlace a).1 s then
    let s := holdVesper { path := some path, page := (regPlace a).1, off := (regPlace a).2, wide := false, value := none } s
    if starting s then s else vendorAnswer path true (bytesOfNat 4 0) s
  else
    let x := regRead .vesper (regPlace a).1 (regPlace a).2 false s
    vendorAnswer path false (bytesOfNat 4 x.1) x.2

/-- A write as Vesper: refused when the access is discarded. -/
def vendorWrite (path : Path) (a v : Nat) (s : State) : State :=
  if !vendorServes s path then s
  else if a < 0xF0000000000 ∨ 0xF0001000000 ≤ a then vendorAnswer path true [] s
  else if a % 4 = 0 ∧ vesperWaits .vesper (regPlace a).1 s then
    let s := holdVesper { path := some path, page := (regPlace a).1, off := (regPlace a).2, wide := false, value := some v } s
    if starting s then s else vendorAnswer path true [] s
  else
    let w := regPlace a
    vendorAnswer path (writeRefused .vesper w.1 w.2 false v s).isSome [] (regWrite .vesper w.1 w.2 false v s)

/-- A held access is performed, and answered where a message asked for it. -/
def performHeld (h : HeldReg) (s : State) : State :=
  match h.value, h.path with
  | none, none => s
  | none, some path =>
    let x := regRead .vesper h.page h.off h.wide s
    vendorAnswer path false (bytesOfNat 4 x.1) x.2
  | some v, none => regWrite .vesper h.page h.off h.wide v s
  | some v, some path =>
    vendorAnswer path (writeRefused .vesper h.page h.off h.wide v s).isSome [] (regWrite .vesper h.page h.off h.wide v s)

/-- Vesper's held accesses are performed in order, Meridian being in RUN (R471). -/
def serveHeld (s : State) : State :=
  forAll performHeld s.vesper.held { s with vesper := { s.vesper with held := [] } }

/-- A vendor-defined read. -/
def execVendorRegRead (path : Path) (addr : Nat) (s : State) : Host.Outcome State Fault Refusal :=
  .next (vendorRead path addr s)

/-- A vendor-defined write. -/
def execVendorRegWrite (path : Path) (addr : Nat) (v : W32) (s : State) : Host.Outcome State Fault Refusal :=
  .next (vendorWrite path addr v.toNat s)

/-! ### Register pages (R494 to R504) -/

/-- A register write by any requester. A function's is a posted write of its port, and is held behind those of the memory window
that wait (R427, R431); a function that VF Enable does not enable has no window (R428). -/
def postWrite (r : Req) (page off : Nat) (wide : Bool) (v : Nat) (s : State) : State :=
  match r with
  | .func p f =>
    if !fnLive s p f then unsupported p f true s
    else if heldWrites s p then holdAccess p (ctlAccess f (windowOff p f page off) wide (some v) s.now) s
    else regWrite r page off wide v s
  | .core _ => regWrite r page off wide v s
  | .vesper => regWrite r page off wide v s

/-- A read of a function's control window. -/
def controlRead (p : Fin 2) (f : Fin 65) (x : Nat) (wide : Bool) (s : State) : State :=
  let y := regRead (.func p f) (windowPlace p f x).1 (windowPlace p f x).2 wide s
  { y.2 with out := y.2.out ++ [.regValue (.func p f) x y.1] }

/-- EN and DBG of a page as they stand. -/
def ctrlNow (s : State) (page : Nat) : Nat := Nat.land (rawWord s 0 page 0x008) 5

/-- A write of PG_CTRL. -/
def execPgEn (r : Req) (page : Nat) (v : W32) (s : State) : Host.Outcome State Fault Refusal :=
  .next (postWrite r page 0x008 false v.toNat s)

/-- A write of PG_CTRL with SRST set. -/
def execPgSrst (r : Req) (page : Nat) (v : W32) (s : State) : Host.Outcome State Fault Refusal :=
  .next (postWrite r page 0x008 false (putBits v.toNat 1 1 1) s)

/-- The state that a soft reset clears has been reset. -/
def execSoftResetDone (page : Nat) (s : State) : Host.Outcome State Fault Refusal :=
  .next (if bitOf (rawWord s 0 page 0x00C) 8 then setField 0 page 0x00C 8 8 0 s else s)

/-- A write of PG_CTRL with DBG set, EN as it stands. -/
def execPgDbg (r : Req) (page : Nat) (s : State) : Host.Outcome State Fault Refusal :=
  .next (postWrite r page 0x008 false (putBits (ctrlNow s page) 2 2 1) s)

/-- A write of PG_CTRL with FECLR set, EN and DBG as they stand. -/
def execPgFeclr (r : Req) (page : Nat) (s : State) : Host.Outcome State Fault Refusal :=
  .next (postWrite r page 0x008 false (ctrlNow s page + 8) s)

/-- A write of PG_CTRL with CNTCLR set, EN and DBG as they stand. -/
def execPgCntclr (r : Req) (page : Nat) (s : State) : Host.Outcome State Fault Refusal :=
  .next (postWrite r page 0x008 false (ctrlNow s page + 16) s)

/-- A write of PG_EVENT. -/
def execEventClear (r : Req) (page : Nat) (v : W32) (s : State) : Host.Outcome State Fault Refusal :=
  .next (postWrite r page 0x010 false v.toNat s)

/-- A register write by any requester, at a local address of the register pages; a function's is of its control window. An
address elsewhere is no register's. -/
def execRegisterWrite (r : Req) (addr : Nat) (wide : Bool) (v : W64) (s : State) : Host.Outcome State Fault Refusal :=
  .next (if addr < 0xF0000000000 ∨ 0xF0001000000 ≤ addr then s
  else postWrite r (reqPlace r addr).1 (reqPlace r addr).2 wide (if wide then v.toNat else v.toNat % 2 ^ 32) s)

/-- A read through a function's control window, 16 MiB from offset 0, behind the port's writes that are held (R427). -/
def execControlWindowRead (p : Fin 2) (f : Fin 65) (x : Nat) (wide : Bool) (s : State) : Host.Outcome State Fault Refusal :=
  .next (if 0x1000000 ≤ x ∨ !fnLive s p f then unsupported p f false s
  else if heldWrites s p then holdAccess p (ctlAccess f x wide none s.now) s
  else controlRead p f x wide s)

end Sys2Proof.Machine
end

