-- ==== Sys2Proof/Machine/Waits.lean ====
section
/-! DEFINITION. What waits is served (R241, R427, R431, R471, R473): the accesses that wait at the migration engine and in the host
ports, and the commands after which they go on. -/
namespace Sys2Proof.Machine

/-! ### The ports' held accesses -/

/-- A held access of the control window is performed. -/
def performControl (p : Fin 2) (w : WinAccess) (wide : Bool) (s : State) : State :=
  let f : Fin 65 := Fin.ofNat 65 w.fn
  match w.data with
  | some bs => regWrite (.func p f) (windowPlace p f w.off).1 (windowPlace p f w.off).2 wide (natOfBytes bs) s
  | none => controlRead p f w.off wide s

/-- A held access of a port is performed; the doorbell adds behind a write wait for one write less (R434). -/
def performHeldAccess (p : Fin 2) (w : WinAccess) (s : State) : State :=
  let s := match w.ctl with
    | some wide => performControl p w wide s
    | none => performAccess p w (dropWaiter (.window p.val) s)
  if w.data.isSome then writeSeen p s else s

/-- Held accesses of a port are performed in order until one must still wait; at most n of them. -/
def pumpWindow (p : Fin 2) : Nat → State → State
  | 0, s => s
  | n + 1, s =>
    match (s.host p).windowQ with
    | [] => s
    | w :: t =>
      if w.ctl.isNone ∧ accessWaits s p w then waitAccess p w s
      else pumpWindow p n (performHeldAccess p w (modHost p (fun h => { h with windowQ := t }) s))

/-- The held accesses of a port are looked at again. -/
def pumpPort (p : Fin 2) (s : State) : State := pumpWindow p (s.host p).windowQ.length s

/-! ### Everything that waits -/

/-- What waits at the migration engine is looked at again. -/
def serveWaiter (w : WaitFor) (s : State) : State :=
  match w with
  | .window p => pumpPort (Fin.ofNat 2 p) s
  | .chan _ => s
  | .msg _ => serveOne w s
  | .rop _ _ _ _ _ => serveOne w s
  | .home _ _ _ => serveOne w s

/-- Every access that waits for nothing any more is served, in order of arrival (R241). -/
def serveWaiters (s : State) : State := forAll pumpPort [0, 1] (forAll serveWaiter (s.mig.waiters.map (·.what)) s)

/-- A channel acts, and what waited behind its row follows once the row has given up its place. -/
def thenServe (ch : ChanId) (act : State → State) (s : State) : State :=
  let held := (s.chan ch).resumed.isSome
  let s := act s
  if held then serveWaiters s else s

/-! ### The commands after which accesses go on -/

/-- A faulted tile is ready: the accesses that wait on it are served in order. -/
def execFaultServed (tile : Nat) (s : State) : Host.Outcome State Fault Refusal := .next (serveWaiters (endFault tile s))

/-- A row's read is issued. -/
def execDmaRowIssue (ch : ChanId) (s : State) : Host.Outcome State Fault Refusal := .next (thenServe ch (rowIssue ch) s)

/-- A row's write is issued. -/
def execDmaRowWrite (ch : ChanId) (s : State) : Host.Outcome State Fault Refusal := .next (thenServe ch (rowWrite ch) s)

/-- A suspended transfer resumes; accesses that came after its row and wait for one of its tiles follow the row (R241). -/
def execTransferResume (ch : ChanId) (s : State) : Host.Outcome State Fault Refusal := .next (resume ch s)

/-- The oldest held read of a port is completed with completer abort 2 ms after it arrived. -/
def execCplabort (p : Fin 2) (s : State) : Host.Outcome State Fault Refusal :=
  .next (match (s.host p).windowQ.find? (fun w => w.data.isNone) with
    | none => s
    | some w =>
      let s := advanceTo (w.arrived + msCycles 2) s
      let first := (s.host p).windowQ.head? == some w
      let s := modHost p (fun h => { h with windowQ := h.windowQ.erase w }) (if first then dropWaiter (.window p.val) s else s)
      let s := logHost 2 p (Fin.ofNat 65 w.fn) 0 (w.off % 2 ^ 32) s
      pumpPort p { s with out := s.out ++ [.readAbort p w.fn] })

/-- Meridian reaches RUN (R470 to R472): what waited for it goes on. -/
def execMeridianStartDone (replicas : Vector (Vector Nat 32) 4) (eyes : Vector Nat 8) (s : State) : Host.Outcome State Fault Refusal :=
  .next (if s.power.meridian = 1 then serveWaiters (serveHeld (startDone replicas eyes s)) else s)

/-- RESTART completes: what waited goes on. -/
def execRestartDone (s : State) : Host.Outcome State Fault Refusal :=
  .next (if s.power.restarting then serveWaiters (finishRestart s) else s)

/-- A core has woken; accesses that waited for it go on. -/
def execCoreWakeDone (c : CoreId) (s : State) : Host.Outcome State Fault Refusal :=
  .next (if (s.core c).sched.waking then
    serveWaiters (modPower (fun p => { p with gated := kdel p.gated c.val })
      (modCore c (fun k => { k with sched := { k.sched with waking := false } }) s))
  else s)

end Sys2Proof.Machine
end

