-- ==== Sys2Proof/Machine/Dispatch.lean ====
section
/-! DEFINITION. One arm per command: a direct call of its meaning, or a refusal by name. -/
namespace Sys2Proof.Machine

def exec (i : Instr) (s : State) : Host.Outcome State Fault Refusal :=
  match i with
  | .powerGood => Sys2Proof.Machine.execPowerGood s
  | .modEnRise v => Sys2Proof.Machine.execModEnRise v s
  | .modEnFall => Sys2Proof.Machine.execModEnFall s
  | .inputPowerLoss through36 => Sys2Proof.Machine.execInputPowerLoss through36 s
  | .stageRom => Sys2Proof.Machine.execStageRom s
  | .stagePuf array => Sys2Proof.Machine.execStagePuf array s
  | .stageVimg straps => Sys2Proof.Machine.execStageVimg straps s
  | .stageCfg => Sys2Proof.Machine.execStageCfg s
  | .stageLog => Sys2Proof.Machine.execStageLog s
  | .stageImg => Sys2Proof.Machine.execStageImg s
  | .stageGnomon failedTrims => Sys2Proof.Machine.execStageGnomon failedTrims s
  | .stageHost => Sys2Proof.Machine.execStageHost s
  | .stageReady => Sys2Proof.Machine.execStageReady s
  | .trialTimeout => Sys2Proof.Machine.execTrialTimeout s
  | .nop c => Sys2Proof.Machine.execNop c s
  | .aluAdd c rd rs1 rs2 => Sys2Proof.Machine.execAluAdd c rd rs1 rs2 s
  | .aluSub c rd rs1 rs2 => Sys2Proof.Machine.execAluSub c rd rs1 rs2 s
  | .aluAnd c rd rs1 rs2 => Sys2Proof.Machine.execAluAnd c rd rs1 rs2 s
  | .aluOr c rd rs1 rs2 => Sys2Proof.Machine.execAluOr c rd rs1 rs2 s
  | .aluXor c rd rs1 rs2 => Sys2Proof.Machine.execAluXor c rd rs1 rs2 s
  | .aluShl c rd rs1 rs2 => Sys2Proof.Machine.execAluShl c rd rs1 rs2 s
  | .aluShr c rd rs1 rs2 => Sys2Proof.Machine.execAluShr c rd rs1 rs2 s
  | .aluSar c rd rs1 rs2 => Sys2Proof.Machine.execAluSar c rd rs1 rs2 s
  | .aluSlt c rd rs1 rs2 => Sys2Proof.Machine.execAluSlt c rd rs1 rs2 s
  | .aluSltu c rd rs1 rs2 => Sys2Proof.Machine.execAluSltu c rd rs1 rs2 s
  | .aluMul c rd rs1 rs2 => Sys2Proof.Machine.execAluMul c rd rs1 rs2 s
  | .aluMulhu c rd rs1 rs2 => Sys2Proof.Machine.execAluMulhu c rd rs1 rs2 s
  | .aluMulh c rd rs1 rs2 => Sys2Proof.Machine.execAluMulh c rd rs1 rs2 s
  | .aluDiv c rd rs1 rs2 => Sys2Proof.Machine.execAluDiv c rd rs1 rs2 s
  | .aluDivu c rd rs1 rs2 => Sys2Proof.Machine.execAluDivu c rd rs1 rs2 s
  | .aluRem c rd rs1 rs2 => Sys2Proof.Machine.execAluRem c rd rs1 rs2 s
  | .aluRemu c rd rs1 rs2 => Sys2Proof.Machine.execAluRemu c rd rs1 rs2 s
  | .aluMin c rd rs1 rs2 => Sys2Proof.Machine.execAluMin c rd rs1 rs2 s
  | .aluMax c rd rs1 rs2 => Sys2Proof.Machine.execAluMax c rd rs1 rs2 s
  | .aluMinu c rd rs1 rs2 => Sys2Proof.Machine.execAluMinu c rd rs1 rs2 s
  | .aluMaxu c rd rs1 rs2 => Sys2Proof.Machine.execAluMaxu c rd rs1 rs2 s
  | .addi c rd rs1 imm => Sys2Proof.Machine.execAddi c rd rs1 imm s
  | .andi c rd rs1 imm => Sys2Proof.Machine.execAndi c rd rs1 imm s
  | .ori c rd rs1 imm => Sys2Proof.Machine.execOri c rd rs1 imm s
  | .xori c rd rs1 imm => Sys2Proof.Machine.execXori c rd rs1 imm s
  | .shli c rd rs1 imm => Sys2Proof.Machine.execShli c rd rs1 imm s
  | .shri c rd rs1 imm => Sys2Proof.Machine.execShri c rd rs1 imm s
  | .sari c rd rs1 imm => Sys2Proof.Machine.execSari c rd rs1 imm s
  | .slti c rd rs1 imm => Sys2Proof.Machine.execSlti c rd rs1 imm s
  | .li c rd imm => Sys2Proof.Machine.execLi c rd imm s
  | .lus c rd imm => Sys2Proof.Machine.execLus c rd imm s
  | .lb c rd rs1 imm => Sys2Proof.Machine.execLb c rd rs1 imm s
  | .lbu c rd rs1 imm => Sys2Proof.Machine.execLbu c rd rs1 imm s
  | .lh c rd rs1 imm => Sys2Proof.Machine.execLh c rd rs1 imm s
  | .lhu c rd rs1 imm => Sys2Proof.Machine.execLhu c rd rs1 imm s
  | .lw c rd rs1 imm => Sys2Proof.Machine.execLw c rd rs1 imm s
  | .lwu c rd rs1 imm => Sys2Proof.Machine.execLwu c rd rs1 imm s
  | .ld c rd rs1 imm => Sys2Proof.Machine.execLd c rd rs1 imm s
  | .sb c rt rs1 imm => Sys2Proof.Machine.execSb c rt rs1 imm s
  | .sh c rt rs1 imm => Sys2Proof.Machine.execSh c rt rs1 imm s
  | .sw c rt rs1 imm => Sys2Proof.Machine.execSw c rt rs1 imm s
  | .sd c rt rs1 imm => Sys2Proof.Machine.execSd c rt rs1 imm s
  | .rdreg c rd rs1 imm => Sys2Proof.Machine.execRdreg c rd rs1 imm s
  | .rdreg64 c rd rs1 imm => Sys2Proof.Machine.execRdreg64 c rd rs1 imm s
  | .regreadReturn c cycles => Sys2Proof.Machine.execRegreadReturn c cycles s
  | .wrreg c rt rs1 imm => Sys2Proof.Machine.execWrreg c rt rs1 imm s
  | .wrreg64 c rt rs1 imm => Sys2Proof.Machine.execWrreg64 c rt rs1 imm s
  | .beq c rs1 rs2 off => Sys2Proof.Machine.execBeq c rs1 rs2 off s
  | .bne c rs1 rs2 off => Sys2Proof.Machine.execBne c rs1 rs2 off s
  | .blt c rs1 rs2 off => Sys2Proof.Machine.execBlt c rs1 rs2 off s
  | .bge c rs1 rs2 off => Sys2Proof.Machine.execBge c rs1 rs2 off s
  | .bltu c rs1 rs2 off => Sys2Proof.Machine.execBltu c rs1 rs2 off s
  | .bgeu c rs1 rs2 off => Sys2Proof.Machine.execBgeu c rs1 rs2 off s
  | .jal c rd off => Sys2Proof.Machine.execJal c rd off s
  | .jalr c rd rs1 imm => Sys2Proof.Machine.execJalr c rd rs1 imm s
  | .push c q f rd rs1 rs2 => Sys2Proof.Machine.execPush c q f rd rs1 rs2 s
  | .pushm c q f rd rs1 rs2 => Sys2Proof.Machine.execPushm c q f rd rs1 rs2 s
  | .qdepth c q rd => Sys2Proof.Machine.execQdepth c q rd s
  | .sopRead c rd rs1 rs2 => Sys2Proof.Machine.execSopRead c rd rs1 rs2 s
  | .sopAdd c rd rs1 rs2 => Sys2Proof.Machine.execSopAdd c rd rs1 rs2 s
  | .sopSet c rd rs1 rs2 => Sys2Proof.Machine.execSopSet c rd rs1 rs2 s
  | .sopReturn c cycles => Sys2Proof.Machine.execSopReturn c cycles s
  | .waitcy c imm => Sys2Proof.Machine.execWaitcy c imm s
  | .waitcyExpire c => Sys2Proof.Machine.execWaitcyExpire c s
  | .rdcyc c rd => Sys2Proof.Machine.execRdcyc c rd s
  | .tend c => Sys2Proof.Machine.execTend c s
  | .reservedOpcode c word => Sys2Proof.Machine.execReservedOpcode c word s
  | .pcend c => Sys2Proof.Machine.execPcend c s
  | .matrixNop c => Sys2Proof.Machine.execMatrixNop c s
  | .load c => Sys2Proof.Machine.execLoad c s
  | .loadComplete c row => Sys2Proof.Machine.execLoadComplete c row s
  | .stream c => Sys2Proof.Machine.execStream c s
  | .streamWordEntry c => Sys2Proof.Machine.execStreamWordEntry c s
  | .streamWordRow c row => Sys2Proof.Machine.execStreamWordRow c row s
  | .streamComplete c => Sys2Proof.Machine.execStreamComplete c s
  | .gopen c => Sys2Proof.Machine.execGopen c s
  | .gclose c => Sys2Proof.Machine.execGclose c s
  | .groupClosed c g => Sys2Proof.Machine.execGroupClosed c g s
  | .grel c => Sys2Proof.Machine.execGrel c s
  | .matrixReservedOp c => Sys2Proof.Machine.execMatrixReservedOp c s
  | .vectorNop c => Sys2Proof.Machine.execVectorNop c s
  | .vAdd c => Sys2Proof.Machine.execVAdd c s
  | .vSub c => Sys2Proof.Machine.execVSub c s
  | .vMul c => Sys2Proof.Machine.execVMul c s
  | .vFma c => Sys2Proof.Machine.execVFma c s
  | .vMin c => Sys2Proof.Machine.execVMin c s
  | .vMax c => Sys2Proof.Machine.execVMax c s
  | .vAbs c => Sys2Proof.Machine.execVAbs c s
  | .vNeg c => Sys2Proof.Machine.execVNeg c s
  | .vDiv c => Sys2Proof.Machine.execVDiv c s
  | .vSqrt c => Sys2Proof.Machine.execVSqrt c s
  | .vRcp c => Sys2Proof.Machine.execVRcp c s
  | .vRsqrt c => Sys2Proof.Machine.execVRsqrt c s
  | .vExp2 c => Sys2Proof.Machine.execVExp2 c s
  | .vLog2 c => Sys2Proof.Machine.execVLog2 c s
  | .vCmp c => Sys2Proof.Machine.execVCmp c s
  | .vSel c => Sys2Proof.Machine.execVSel c s
  | .vMovs c => Sys2Proof.Machine.execVMovs c s
  | .vIadd c => Sys2Proof.Machine.execVIadd c s
  | .vIsub c => Sys2Proof.Machine.execVIsub c s
  | .vImul c => Sys2Proof.Machine.execVImul c s
  | .vAnd c => Sys2Proof.Machine.execVAnd c s
  | .vOr c => Sys2Proof.Machine.execVOr c s
  | .vXor c => Sys2Proof.Machine.execVXor c s
  | .vShl c => Sys2Proof.Machine.execVShl c s
  | .vShr c => Sys2Proof.Machine.execVShr c s
  | .vSar c => Sys2Proof.Machine.execVSar c s
  | .vIcmp c => Sys2Proof.Machine.execVIcmp c s
  | .vImin c => Sys2Proof.Machine.execVImin c s
  | .vImax c => Sys2Proof.Machine.execVImax c s
  | .vCvt c => Sys2Proof.Machine.execVCvt c s
  | .vQuant c => Sys2Proof.Machine.execVQuant c s
  | .vQgrad c => Sys2Proof.Machine.execVQgrad c s
  | .vAccrd c => Sys2Proof.Machine.execVAccrd c s
  | .vRsum c => Sys2Proof.Machine.execVRsum c s
  | .vRmax c => Sys2Proof.Machine.execVRmax c s
  | .vRmin c => Sys2Proof.Machine.execVRmin c s
  | .vRargmax c => Sys2Proof.Machine.execVRargmax c s
  | .vSoftmax c => Sys2Proof.Machine.execVSoftmax c s
  | .vLogsoftmax c => Sys2Proof.Machine.execVLogsoftmax c s
  | .vLayernorm c => Sys2Proof.Machine.execVLayernorm c s
  | .vRmsnorm c => Sys2Proof.Machine.execVRmsnorm c s
  | .vSample c => Sys2Proof.Machine.execVSample c s
  | .vRand c => Sys2Proof.Machine.execVRand c s
  | .vRkey c => Sys2Proof.Machine.execVRkey c s
  | .vVld c => Sys2Proof.Machine.execVVld c s
  | .vVst c => Sys2Proof.Machine.execVVst c s
  | .vectorReservedOp c => Sys2Proof.Machine.execVectorReservedOp c s
  | .vectorComplete c => Sys2Proof.Machine.execVectorComplete c s
  | .dmaNop c => Sys2Proof.Machine.execDmaNop c s
  | .xfer c => Sys2Proof.Machine.execXfer c s
  | .dmaReservedOp c => Sys2Proof.Machine.execDmaReservedOp c s
  | .descriptorActivate ch => Sys2Proof.Machine.execDescriptorActivate ch s
  | .dmaRowIssue ch => Sys2Proof.Machine.execDmaRowIssue ch s
  | .dmaRowWrite ch => Sys2Proof.Machine.execDmaRowWrite ch s
  | .transferResume ch => Sys2Proof.Machine.execTransferResume ch s
  | .xferComplete ch => Sys2Proof.Machine.execXferComplete ch s
  | .progressAdd ch => Sys2Proof.Machine.execProgressAdd ch s
  | .latedrop ch => Sys2Proof.Machine.execLatedrop ch s
  | .detachedStart r k abortToo => Sys2Proof.Machine.execDetachedStart r k abortToo s
  | .detachedAbort r k => Sys2Proof.Machine.execDetachedAbort r k s
  | .reduceNop c => Sys2Proof.Machine.execReduceNop c s
  | .contrib c => Sys2Proof.Machine.execContrib c s
  | .retract c => Sys2Proof.Machine.execRetract c s
  | .reduceReservedOp c => Sys2Proof.Machine.execReduceReservedOp c s
  | .trCommit r c t v => Sys2Proof.Machine.execTrCommit r c t v s
  | .schArm r c slot => Sys2Proof.Machine.execSchArm r c slot s
  | .slotWrite r c slot word v => Sys2Proof.Machine.execSlotWrite r c slot word v s
  | .schCancel r c slot => Sys2Proof.Machine.execSchCancel r c slot s
  | .cancelComplete c => Sys2Proof.Machine.execCancelComplete c s
  | .dispatch c => Sys2Proof.Machine.execDispatch c s
  | .taskEnd c => Sys2Proof.Machine.execTaskEnd c s
  | .guardedReplay c => Sys2Proof.Machine.execGuardedReplay c s
  | .replayHang c => Sys2Proof.Machine.execReplayHang c s
  | .ctxCfgWrite r v => Sys2Proof.Machine.execCtxCfgWrite r v s
  | .ctxCancel r => Sys2Proof.Machine.execCtxCancel r s
  | .ctxSeedWrite r v => Sys2Proof.Machine.execCtxSeedWrite r v s
  | .soValWrite r v => Sys2Proof.Machine.execSoValWrite r v s
  | .soAddWrite r v => Sys2Proof.Machine.execSoAddWrite r v s
  | .reqopen r c page => Sys2Proof.Machine.execReqopen r c page s
  | .reqready r c page => Sys2Proof.Machine.execReqready r c page s
  | .calCfgWrite r v => Sys2Proof.Machine.execCalCfgWrite r v s
  | .calSeedWrite r v => Sys2Proof.Machine.execCalSeedWrite r v s
  | .clrhist r v => Sys2Proof.Machine.execClrhist r v s
  | .calDeriveDone slot => Sys2Proof.Machine.execCalDeriveDone slot s
  | .accDebugRead c off => Sys2Proof.Machine.execAccDebugRead c off s
  | .accDebugWrite c off v => Sys2Proof.Machine.execAccDebugWrite c off v s
  | .alloc r => Sys2Proof.Machine.execAlloc r s
  | .memFree r => Sys2Proof.Machine.execMemFree r s
  | .memPin r => Sys2Proof.Machine.execMemPin r s
  | .memUnpin r => Sys2Proof.Machine.execMemUnpin r s
  | .promote r => Sys2Proof.Machine.execPromote r s
  | .demote r => Sys2Proof.Machine.execDemote r s
  | .writeback r => Sys2Proof.Machine.execWriteback r s
  | .setplace r => Sys2Proof.Machine.execSetplace r s
  | .memReservedOp r op => Sys2Proof.Machine.execMemReservedOp r op s
  | .memRequestDone r => Sys2Proof.Machine.execMemRequestDone r s
  | .memQuotaWrite r v => Sys2Proof.Machine.execMemQuotaWrite r v s
  | .memLimitWrite r v => Sys2Proof.Machine.execMemLimitWrite r v s
  | .tileFault tile isWrite who => Sys2Proof.Machine.execTileFault tile isWrite who s
  | .faultServed tile => Sys2Proof.Machine.execFaultServed tile s
  | .backgroundFetch page => Sys2Proof.Machine.execBackgroundFetch page s
  | .demotionComplete page => Sys2Proof.Machine.execDemotionComplete page s
  | .eviction => Sys2Proof.Machine.execEviction s
  | .ageTick => Sys2Proof.Machine.execAgeTick s
  | .seqIdle ctx => Sys2Proof.Machine.execSeqIdle ctx s
  | .correctableError site addr row => Sys2Proof.Machine.execCorrectableError site addr row s
  | .uncorrectableError site addr => Sys2Proof.Machine.execUncorrectableError site addr s
  | .scrub errors => Sys2Proof.Machine.execScrub errors s
  | .memoryWindowRead p f x q => Sys2Proof.Machine.execMemoryWindowRead p f x q s
  | .memoryWindowWrite p f x data poison => Sys2Proof.Machine.execMemoryWindowWrite p f x data poison s
  | .cplabort p => Sys2Proof.Machine.execCplabort p s
  | .updateStart => Sys2Proof.Machine.execUpdateStart s
  | .updateEnd => Sys2Proof.Machine.execUpdateEnd s
  | .copy r => Sys2Proof.Machine.execCopy r s
  | .layerEntryWrite r off v => Sys2Proof.Machine.execLayerEntryWrite r off v s
  | .contribSend ch => Sys2Proof.Machine.execContribSend ch s
  | .memberDeadline b => Sys2Proof.Machine.execMemberDeadline b s
  | .contribMsg m => Sys2Proof.Machine.execContribMsg m s
  | .noticeMsg m => Sys2Proof.Machine.execNoticeMsg m s
  | .retractMsg m => Sys2Proof.Machine.execRetractMsg m s
  | .proposeMsg m => Sys2Proof.Machine.execProposeMsg m s
  | .agreeTimeout b odd => Sys2Proof.Machine.execAgreeTimeout b odd s
  | .agreeMsg m => Sys2Proof.Machine.execAgreeMsg m s
  | .clearSend b => Sys2Proof.Machine.execClearSend b s
  | .clearMsg m => Sys2Proof.Machine.execClearMsg m s
  | .recexclMsg m => Sys2Proof.Machine.execRecexclMsg m s
  | .homeDeadline b odd => Sys2Proof.Machine.execHomeDeadline b odd s
  | .recordOpenEmpty b => Sys2Proof.Machine.execRecordOpenEmpty b s
  | .epwaitExpire b odd => Sys2Proof.Machine.execEpwaitExpire b odd s
  | .portEnable r p on txeq => Sys2Proof.Machine.execPortEnable r p on txeq s
  | .retrain r p => Sys2Proof.Machine.execRetrain r p s
  | .signalDetect p => Sys2Proof.Machine.execSignalDetect p s
  | .adaptDone p => Sys2Proof.Machine.execAdaptDone p s
  | .alignLock p order pol => Sys2Proof.Machine.execAlignLock p order pol s
  | .trainFlit p x => Sys2Proof.Machine.execTrainFlit p x s
  | .trainfail p => Sys2Proof.Machine.execTrainfail p s
  | .trainRestEnd p => Sys2Proof.Machine.execTrainRestEnd p s
  | .fecLockLost p => Sys2Proof.Machine.execFecLockLost p s
  | .dataFlit p x => Sys2Proof.Machine.execDataFlit p x s
  | .idleFlit p x => Sys2Proof.Machine.execIdleFlit p x s
  | .nakFlit p x => Sys2Proof.Machine.execNakFlit p x s
  | .reservedFlit p x => Sys2Proof.Machine.execReservedFlit p x s
  | .flitSend p => Sys2Proof.Machine.execFlitSend p s
  | .messageInject m => Sys2Proof.Machine.execMessageInject m s
  | .flowholdExpire p src dest vc flow => Sys2Proof.Machine.execFlowholdExpire p src dest vc flow s
  | .ickRtentryWrite r v => Sys2Proof.Machine.execIckRtentryWrite r v s
  | .ickModidWrite r v => Sys2Proof.Machine.execIckModidWrite r v s
  | .read m => Sys2Proof.Machine.execRead m s
  | .write m => Sys2Proof.Machine.execWrite m s
  | .fadd m => Sys2Proof.Machine.execFadd m s
  | .swap m => Sys2Proof.Machine.execSwap m s
  | .cas m => Sys2Proof.Machine.execCas m s
  | .umax m => Sys2Proof.Machine.execUmax m s
  | .umin m => Sys2Proof.Machine.execUmin m s
  | .rdata m => Sys2Proof.Machine.execRdata m s
  | .wcomp m => Sys2Proof.Machine.execWcomp m s
  | .aresult m => Sys2Proof.Machine.execAresult m s
  | .soopAdd m => Sys2Proof.Machine.execSoopAdd m s
  | .soopSet m => Sys2Proof.Machine.execSoopSet m s
  | .pnotice m => Sys2Proof.Machine.execPnotice m s
  | .reservedTtype m => Sys2Proof.Machine.execReservedTtype m s
  | .txtimeout tag => Sys2Proof.Machine.execTxtimeout tag s
  | .tagRelease tag => Sys2Proof.Machine.execTagRelease tag s
  | .ropFadd r held => Sys2Proof.Machine.execRopFadd r held s
  | .ropSwap r held => Sys2Proof.Machine.execRopSwap r held s
  | .ropCas r held => Sys2Proof.Machine.execRopCas r held s
  | .ropUmax r held => Sys2Proof.Machine.execRopUmax r held s
  | .ropUmin r held => Sys2Proof.Machine.execRopUmin r held s
  | .ropSoopAdd r held => Sys2Proof.Machine.execRopSoopAdd r held s
  | .ropSoopSet r held => Sys2Proof.Machine.execRopSoopSet r held s
  | .ropReserved r v => Sys2Proof.Machine.execRopReserved r v s
  | .forwarderFire fw => Sys2Proof.Machine.execForwarderFire fw s
  | .boundaryEnable r => Sys2Proof.Machine.execBoundaryEnable r s
  | .bndStepWrite r v => Sys2Proof.Machine.execBndStepWrite r v s
  | .bndCtrlWrite r v => Sys2Proof.Machine.execBndCtrlWrite r v s
  | .bndHoldWrite r v => Sys2Proof.Machine.execBndHoldWrite r v s
  | .boundary => Sys2Proof.Machine.execBoundary s
  | .stepsyncEdge => Sys2Proof.Machine.execStepsyncEdge s
  | .holdExpire => Sys2Proof.Machine.execHoldExpire s
  | .stepsyncOutEnd => Sys2Proof.Machine.execStepsyncOutEnd s
  | .checkRun c => Sys2Proof.Machine.execCheckRun c s
  | .decidingRun c => Sys2Proof.Machine.execDecidingRun c s
  | .runOutcome c => Sys2Proof.Machine.execRunOutcome c s
  | .logbookWrite => Sys2Proof.Machine.execLogbookWrite s
  | .linkPeriod => Sys2Proof.Machine.execLinkPeriod s
  | .fieldTestDue c => Sys2Proof.Machine.execFieldTestDue c s
  | .relFtreq r v => Sys2Proof.Machine.execRelFtreq r v s
  | .fieldTestStart c => Sys2Proof.Machine.execFieldTestStart c s
  | .fieldTestEnd c firstPass secondPass => Sys2Proof.Machine.execFieldTestEnd c firstPass secondPass s
  | .ftBudgetExpire c => Sys2Proof.Machine.execFtBudgetExpire c s
  | .ftLateExpire c => Sys2Proof.Machine.execFtLateExpire c s
  | .relCkpt r v => Sys2Proof.Machine.execRelCkpt r v s
  | .relCtxjobWrite r v => Sys2Proof.Machine.execRelCtxjobWrite r v s
  | .reportSend => Sys2Proof.Machine.execReportSend s
  | .doorbell p f d v => Sys2Proof.Machine.execDoorbell p f d v s
  | .doorbellApply p => Sys2Proof.Machine.execDoorbellApply p s
  | .hifDbobjWrite p f v => Sys2Proof.Machine.execHifDbobjWrite p f v s
  | .hifWcfgWrite p f v => Sys2Proof.Machine.execHifWcfgWrite p f v s
  | .watchFire p f w => Sys2Proof.Machine.execWatchFire p f w s
  | .msixWrite p f vec => Sys2Proof.Machine.execMsixWrite p f vec s
  | .featok p f => Sys2Proof.Machine.execFeatok p f s
  | .featureWithdraw p f => Sys2Proof.Machine.execFeatureWithdraw p f s
  | .hifMwbaseWrite p f v => Sys2Proof.Machine.execHifMwbaseWrite p f v s
  | .ctxAssign r port fn => Sys2Proof.Machine.execCtxAssign r port fn s
  | .ctxUnassign r => Sys2Proof.Machine.execCtxUnassign r s
  | .hifAdminWrite r v => Sys2Proof.Machine.execHifAdminWrite r v s
  | .functionLevelReset p f => Sys2Proof.Machine.execFunctionLevelReset p f s
  | .hotReset p => Sys2Proof.Machine.execHotReset p s
  | .perstAssert p => Sys2Proof.Machine.execPerstAssert p s
  | .vfEnableClear p => Sys2Proof.Machine.execVfEnableClear p s
  | .dbgReq r => Sys2Proof.Machine.execDbgReq r s
  | .dbgLock r => Sys2Proof.Machine.execDbgLock r s
  | .dbgErase r => Sys2Proof.Machine.execDbgErase r s
  | .tokenSubmit r v => Sys2Proof.Machine.execTokenSubmit r v s
  | .challengeExpire => Sys2Proof.Machine.execChallengeExpire s
  | .scopeExpire => Sys2Proof.Machine.execScopeExpire s
  | .spdmGetVersion path => Sys2Proof.Machine.execSpdmGetVersion path s
  | .spdmGetCapabilities path => Sys2Proof.Machine.execSpdmGetCapabilities path s
  | .spdmNegotiateAlgorithms path sm2 sm3 => Sys2Proof.Machine.execSpdmNegotiateAlgorithms path sm2 sm3 s
  | .spdmGetDigests path => Sys2Proof.Machine.execSpdmGetDigests path s
  | .spdmGetCertificate path slot off len => Sys2Proof.Machine.execSpdmGetCertificate path slot off len s
  | .spdmChallenge path slot nonce => Sys2Proof.Machine.execSpdmChallenge path slot nonce s
  | .spdmGetMeasurements path index nonce sign => Sys2Proof.Machine.execSpdmGetMeasurements path index nonce sign s
  | .spdmRespondIfReady path code token => Sys2Proof.Machine.execSpdmRespondIfReady path code token s
  | .spdmUnsupported path code => Sys2Proof.Machine.execSpdmUnsupported path code s
  | .mctpDatagram d => Sys2Proof.Machine.execMctpDatagram d s
  | .smbusPacket d => Sys2Proof.Machine.execSmbusPacket d s
  | .arpRequest addr => Sys2Proof.Machine.execArpRequest addr s
  | .icmpEcho addr data => Sys2Proof.Machine.execIcmpEcho addr data s
  | .dhcpExchange leased => Sys2Proof.Machine.execDhcpExchange leased s
  | .setEndpointId path eid => Sys2Proof.Machine.execSetEndpointId path eid s
  | .getEndpointId path => Sys2Proof.Machine.execGetEndpointId path s
  | .getMctpVersionSupport path => Sys2Proof.Machine.execGetMctpVersionSupport path s
  | .getMessageTypeSupport path => Sys2Proof.Machine.execGetMessageTypeSupport path s
  | .getVendorMessageSupport path => Sys2Proof.Machine.execGetVendorMessageSupport path s
  | .vendorRegRead path addr => Sys2Proof.Machine.execVendorRegRead path addr s
  | .vendorRegWrite path addr v => Sys2Proof.Machine.execVendorRegWrite path addr v s
  | .getTid path => Sys2Proof.Machine.execGetTid path s
  | .setTid path tid => Sys2Proof.Machine.execSetTid path tid s
  | .getPldmVersion path ty => Sys2Proof.Machine.execGetPldmVersion path ty s
  | .getPldmTypes path => Sys2Proof.Machine.execGetPldmTypes path s
  | .getPldmCommands path ty => Sys2Proof.Machine.execGetPldmCommands path ty s
  | .setEventReceiver path eid => Sys2Proof.Machine.execSetEventReceiver path eid s
  | .getSensorReading path id => Sys2Proof.Machine.execGetSensorReading path id s
  | .queryDeviceIdentifiers path => Sys2Proof.Machine.execQueryDeviceIdentifiers path s
  | .getFirmwareParameters path => Sys2Proof.Machine.execGetFirmwareParameters path s
  | .requestUpdate path => Sys2Proof.Machine.execRequestUpdate path s
  | .passComponentTable path comp svn => Sys2Proof.Machine.execPassComponentTable path comp svn s
  | .updateComponent path k size => Sys2Proof.Machine.execUpdateComponent path k size s
  | .requestFirmwareData path data => Sys2Proof.Machine.execRequestFirmwareData path data s
  | .transferComplete path => Sys2Proof.Machine.execTransferComplete path s
  | .verifyComplete path => Sys2Proof.Machine.execVerifyComplete path s
  | .applyComplete path => Sys2Proof.Machine.execApplyComplete path s
  | .activateFirmware path selfContained => Sys2Proof.Machine.execActivateFirmware path selfContained s
  | .pldmGetStatus path => Sys2Proof.Machine.execPldmGetStatus path s
  | .cancelUpdateComponent path => Sys2Proof.Machine.execCancelUpdateComponent path s
  | .cancelUpdate path => Sys2Proof.Machine.execCancelUpdate path s
  | .mstart r => Sys2Proof.Machine.execMstart r s
  | .mstop r => Sys2Proof.Machine.execMstop r s
  | .moff r => Sys2Proof.Machine.execMoff r s
  | .restart r => Sys2Proof.Machine.execRestart r s
  | .meridianStartDone replicas eyes => Sys2Proof.Machine.execMeridianStartDone replicas eyes s
  | .meridianStopDone => Sys2Proof.Machine.execMeridianStopDone s
  | .coreGate c => Sys2Proof.Machine.execCoreGate c s
  | .coreWake c => Sys2Proof.Machine.execCoreWake c s
  | .vinSample v => Sys2Proof.Machine.execVinSample v s
  | .sensorSample temps modW merW => Sys2Proof.Machine.execSensorSample temps modW merW s
  | .clockStep => Sys2Proof.Machine.execClockStep s
  | .clamp amps => Sys2Proof.Machine.execClamp amps s
  | .clampEnd => Sys2Proof.Machine.execClampEnd s
  | .hourTick => Sys2Proof.Machine.execHourTick s
  | .periodicPlan replicas eyes => Sys2Proof.Machine.execPeriodicPlan replicas eyes s
  | .almReq r replicas eyes => Sys2Proof.Machine.execAlmReq r replicas eyes s
  | .pwrLimitWrite r meridian v => Sys2Proof.Machine.execPwrLimitWrite r meridian v s
  | .pgEn r page v => Sys2Proof.Machine.execPgEn r page v s
  | .pgSrst r page v => Sys2Proof.Machine.execPgSrst r page v s
  | .softResetDone page => Sys2Proof.Machine.execSoftResetDone page s
  | .pgDbg r page => Sys2Proof.Machine.execPgDbg r page s
  | .pgFeclr r page => Sys2Proof.Machine.execPgFeclr r page s
  | .pgCntclr r page => Sys2Proof.Machine.execPgCntclr r page s
  | .eventClear r page v => Sys2Proof.Machine.execEventClear r page v s
  | .registerWrite r addr wide v => Sys2Proof.Machine.execRegisterWrite r addr wide v s
  | .controlWindowRead p f x wide => Sys2Proof.Machine.execControlWindowRead p f x wide s
  | .configurationRequest p f q => Sys2Proof.Machine.execConfigurationRequest p f q s
  | .perstRelease p refclk => Sys2Proof.Machine.execPerstRelease p refclk s
  | .inputPowerReturn mv => Sys2Proof.Machine.execInputPowerReturn mv s
  | .doeDiscovery p index => Sys2Proof.Machine.execDoeDiscovery p index s
  | .tileTableRewriteDone => Sys2Proof.Machine.execTileTableRewriteDone s
  | .restartDone => Sys2Proof.Machine.execRestartDone s
  | .coreWakeDone c => Sys2Proof.Machine.execCoreWakeDone c s

end Sys2Proof.Machine
end

