-- ==== Sys2Proof/Machine/Step.lean ====
section
/-! DEFINITION. One step of the block: the command at the front of the queue takes its effect. -/
namespace Sys2Proof.Machine

/-- The block takes the command at the front of its queue and acts on it with the rest of the queue; on an empty queue it
idles, and the state is unchanged (DESIGN CHOICE, log entry 15). -/
def step (s : State) : Host.Outcome State Fault Refusal :=
  match s.pending with
  | [] => .next s
  | i :: rest => exec i { s with pending := rest }

/-- The state with a command put at the front of its queue. -/
def State.enqueue (s : State) (i : Instr) : State := { s with pending := i :: s.pending }

/-- The state with the command that a word spells put at the front of its queue; unchanged where the word spells none. -/
def State.withFetchWord (s : State) (nbits w : Nat) : State :=
  match decodeTableWord nbits w with
  | none => s
  | some i => s.enqueue i

end Sys2Proof.Machine
end

