-- ==== Sys2Proof/WellFormed.lean ====
section
/-! DEFINITION. The checks a command meets before the block can be given it: sizes and ranges that the spec fixes and the
operand types do not. -/
namespace Sys2Proof

/-- A flit is 256 bytes (R336). -/
def flitOk (x : Flit) : Bool := decide (x.bytes.length = 256)

/-- The routing fields and the envelope of a message fit their widths (R336, R360). -/
def msgOk (m : Msg) : Bool :=
  decide (m.src < 16384 ∧ m.dest < 16384 ∧ m.vc < 8 ∧ m.flow < 64 ∧ m.kind < 16 ∧ m.sinc < 256 ∧ m.fseq < 65536) &&
  m.bad.all (fun k => decide (k < 18))

/-- A page number of the local map (R492), or the model's number of a function's own page. -/
def pageOk (n : Nat) : Bool := decide (n < 4096 ∨ (0x2000 ≤ n ∧ n < 0x2000 + 130 * 16))

/-- A command is well formed. -/
def Instr.wf : Instr → Bool
  | .powerGood => true
  | .modEnRise v => decide (v.mv < 65536)
  | .modEnFall => true
  | .inputPowerLoss _ => true
  | .stageRom => true
  | .stagePuf array => decide (array.length = 4096)
  | .stageVimg _ => true
  | .stageCfg => true
  | .stageLog => true
  | .stageImg => true
  | .stageGnomon failedTrims => failedTrims.all (fun k => decide (k < 256))
  | .stageHost => true
  | .stageReady => true
  | .trialTimeout => true
  | .nop _ => true
  | .aluAdd _ _ _ _ => true
  | .aluSub _ _ _ _ => true
  | .aluAnd _ _ _ _ => true
  | .aluOr _ _ _ _ => true
  | .aluXor _ _ _ _ => true
  | .aluShl _ _ _ _ => true
  | .aluShr _ _ _ _ => true
  | .aluSar _ _ _ _ => true
  | .aluSlt _ _ _ _ => true
  | .aluSltu _ _ _ _ => true
  | .aluMul _ _ _ _ => true
  | .aluMulhu _ _ _ _ => true
  | .aluMulh _ _ _ _ => true
  | .aluDiv _ _ _ _ => true
  | .aluDivu _ _ _ _ => true
  | .aluRem _ _ _ _ => true
  | .aluRemu _ _ _ _ => true
  | .aluMin _ _ _ _ => true
  | .aluMax _ _ _ _ => true
  | .aluMinu _ _ _ _ => true
  | .aluMaxu _ _ _ _ => true
  | .addi _ _ _ _ => true
  | .andi _ _ _ _ => true
  | .ori _ _ _ _ => true
  | .xori _ _ _ _ => true
  | .shli _ _ _ _ => true
  | .shri _ _ _ _ => true
  | .sari _ _ _ _ => true
  | .slti _ _ _ _ => true
  | .li _ _ _ => true
  | .lus _ _ _ => true
  | .lb _ _ _ _ => true
  | .lbu _ _ _ _ => true
  | .lh _ _ _ _ => true
  | .lhu _ _ _ _ => true
  | .lw _ _ _ _ => true
  | .lwu _ _ _ _ => true
  | .ld _ _ _ _ => true
  | .sb _ _ _ _ => true
  | .sh _ _ _ _ => true
  | .sw _ _ _ _ => true
  | .sd _ _ _ _ => true
  | .rdreg _ _ _ _ => true
  | .rdreg64 _ _ _ _ => true
  | .regreadReturn _ _ => true
  | .wrreg _ _ _ _ => true
  | .wrreg64 _ _ _ _ => true
  | .beq _ _ _ _ => true
  | .bne _ _ _ _ => true
  | .blt _ _ _ _ => true
  | .bge _ _ _ _ => true
  | .bltu _ _ _ _ => true
  | .bgeu _ _ _ _ => true
  | .jal _ _ _ => true
  | .jalr _ _ _ _ => true
  | .push _ _ _ _ _ _ => true
  | .pushm _ _ _ _ _ _ => true
  | .qdepth _ _ _ => true
  | .sopRead _ _ _ _ => true
  | .sopAdd _ _ _ _ => true
  | .sopSet _ _ _ _ => true
  | .sopReturn _ _ => true
  | .waitcy _ _ => true
  | .waitcyExpire _ => true
  | .rdcyc _ _ => true
  | .tend _ => true
  | .reservedOpcode _ _ => true
  | .pcend _ => true
  | .matrixNop _ => true
  | .load _ => true
  | .loadComplete _ _ => true
  | .stream _ => true
  | .streamWordEntry _ => true
  | .streamWordRow _ _ => true
  | .streamComplete _ => true
  | .gopen _ => true
  | .gclose _ => true
  | .groupClosed _ _ => true
  | .grel _ => true
  | .matrixReservedOp _ => true
  | .vectorNop _ => true
  | .vAdd _ => true
  | .vSub _ => true
  | .vMul _ => true
  | .vFma _ => true
  | .vMin _ => true
  | .vMax _ => true
  | .vAbs _ => true
  | .vNeg _ => true
  | .vDiv _ => true
  | .vSqrt _ => true
  | .vRcp _ => true
  | .vRsqrt _ => true
  | .vExp2 _ => true
  | .vLog2 _ => true
  | .vCmp _ => true
  | .vSel _ => true
  | .vMovs _ => true
  | .vIadd _ => true
  | .vIsub _ => true
  | .vImul _ => true
  | .vAnd _ => true
  | .vOr _ => true
  | .vXor _ => true
  | .vShl _ => true
  | .vShr _ => true
  | .vSar _ => true
  | .vIcmp _ => true
  | .vImin _ => true
  | .vImax _ => true
  | .vCvt _ => true
  | .vQuant _ => true
  | .vQgrad _ => true
  | .vAccrd _ => true
  | .vRsum _ => true
  | .vRmax _ => true
  | .vRmin _ => true
  | .vRargmax _ => true
  | .vSoftmax _ => true
  | .vLogsoftmax _ => true
  | .vLayernorm _ => true
  | .vRmsnorm _ => true
  | .vSample _ => true
  | .vRand _ => true
  | .vRkey _ => true
  | .vVld _ => true
  | .vVst _ => true
  | .vectorReservedOp _ => true
  | .vectorComplete _ => true
  | .dmaNop _ => true
  | .xfer _ => true
  | .dmaReservedOp _ => true
  | .descriptorActivate _ => true
  | .dmaRowIssue _ => true
  | .dmaRowWrite _ => true
  | .transferResume _ => true
  | .xferComplete _ => true
  | .progressAdd _ => true
  | .latedrop _ => true
  | .detachedStart _ _ _ => true
  | .detachedAbort _ _ => true
  | .reduceNop _ => true
  | .contrib _ => true
  | .retract _ => true
  | .reduceReservedOp _ => true
  | .trCommit _ _ _ _ => true
  | .schArm _ _ _ => true
  | .slotWrite _ _ _ _ _ => true
  | .schCancel _ _ _ => true
  | .cancelComplete _ => true
  | .dispatch _ => true
  | .taskEnd _ => true
  | .guardedReplay _ => true
  | .replayHang _ => true
  | .ctxCfgWrite _ _ => true
  | .ctxCancel _ => true
  | .ctxSeedWrite _ _ => true
  | .soValWrite _ _ => true
  | .soAddWrite _ _ => true
  | .reqopen _ _ _ => true
  | .reqready _ _ _ => true
  | .calCfgWrite _ _ => true
  | .calSeedWrite _ _ => true
  | .clrhist _ _ => true
  | .calDeriveDone _ => true
  | .accDebugRead _ _ => true
  | .accDebugWrite _ _ _ => true
  | .alloc _ => true
  | .memFree _ => true
  | .memPin _ => true
  | .memUnpin _ => true
  | .promote _ => true
  | .demote _ => true
  | .writeback _ => true
  | .setplace _ => true
  | .memReservedOp _ _ => true
  | .memRequestDone _ => true
  | .memQuotaWrite _ _ => true
  | .memLimitWrite _ _ => true
  | .tileFault tile _ _ => decide (tile < 805306368)
  | .faultServed tile => decide (tile < 805306368)
  | .backgroundFetch page => decide (page < 1572864)
  | .demotionComplete page => decide (page < 1572864)
  | .eviction => true
  | .ageTick => true
  | .seqIdle _ => true
  | .correctableError _ _ _ => true
  | .uncorrectableError _ _ => true
  | .scrub _ => true
  | .memoryWindowRead _ _ _ (.read len) => decide (0 < len ∧ len ≤ 4096)
  | .memoryWindowRead _ _ _ .other => true
  | .memoryWindowWrite _ _ _ data _ => decide (0 < data.length ∧ data.length ≤ 512)
  | .cplabort _ => true
  | .updateStart => true
  | .updateEnd => true
  | .copy _ => true
  | .layerEntryWrite _ _ _ => true
  | .contribSend _ => true
  | .memberDeadline _ => true
  | .contribMsg m => msgOk m
  | .noticeMsg m => msgOk m
  | .retractMsg m => msgOk m
  | .proposeMsg m => msgOk m
  | .agreeTimeout _ _ => true
  | .agreeMsg m => msgOk m
  | .clearSend _ => true
  | .clearMsg m => msgOk m
  | .recexclMsg m => msgOk m
  | .homeDeadline _ _ => true
  | .recordOpenEmpty _ => true
  | .epwaitExpire _ _ => true
  | .portEnable _ _ _ _ => true
  | .retrain _ _ => true
  | .signalDetect _ => true
  | .adaptDone _ => true
  | .alignLock _ _ _ => true
  | .trainFlit _ x => flitOk x
  | .trainfail _ => true
  | .trainRestEnd _ => true
  | .fecLockLost _ => true
  | .dataFlit _ x => flitOk x
  | .idleFlit _ x => flitOk x
  | .nakFlit _ x => flitOk x
  | .reservedFlit _ x => flitOk x
  | .flitSend _ => true
  | .messageInject m => msgOk m
  | .flowholdExpire _ _ _ _ _ => true
  | .ickRtentryWrite _ _ => true
  | .ickModidWrite _ _ => true
  | .read m => msgOk m
  | .write m => msgOk m
  | .fadd m => msgOk m
  | .swap m => msgOk m
  | .cas m => msgOk m
  | .umax m => msgOk m
  | .umin m => msgOk m
  | .rdata m => msgOk m
  | .wcomp m => msgOk m
  | .aresult m => msgOk m
  | .soopAdd m => msgOk m
  | .soopSet m => msgOk m
  | .pnotice m => msgOk m
  | .reservedTtype m => msgOk m
  | .txtimeout _ => true
  | .tagRelease _ => true
  | .ropFadd _ _ => true
  | .ropSwap _ _ => true
  | .ropCas _ _ => true
  | .ropUmax _ _ => true
  | .ropUmin _ _ => true
  | .ropSoopAdd _ _ => true
  | .ropSoopSet _ _ => true
  | .ropReserved _ _ => true
  | .forwarderFire _ => true
  | .boundaryEnable _ => true
  | .bndStepWrite _ _ => true
  | .bndCtrlWrite _ _ => true
  | .bndHoldWrite _ _ => true
  | .boundary => true
  | .stepsyncEdge => true
  | .holdExpire => true
  | .stepsyncOutEnd => true
  | .checkRun _ => true
  | .decidingRun _ => true
  | .runOutcome _ => true
  | .logbookWrite => true
  | .linkPeriod => true
  | .fieldTestDue _ => true
  | .relFtreq _ _ => true
  | .fieldTestStart _ => true
  | .fieldTestEnd _ _ _ => true
  | .ftBudgetExpire _ => true
  | .ftLateExpire _ => true
  | .relCkpt _ _ => true
  | .relCtxjobWrite _ _ => true
  | .reportSend => true
  | .doorbell _ _ _ _ => true
  | .doorbellApply _ => true
  | .hifDbobjWrite _ _ _ => true
  | .hifWcfgWrite _ _ _ => true
  | .watchFire _ _ _ => true
  | .msixWrite _ _ _ => true
  | .featok _ _ => true
  | .featureWithdraw _ _ => true
  | .hifMwbaseWrite _ _ _ => true
  | .ctxAssign _ _ _ => true
  | .ctxUnassign _ => true
  | .hifAdminWrite _ _ => true
  | .functionLevelReset _ _ => true
  | .hotReset _ => true
  | .perstAssert _ => true
  | .vfEnableClear _ => true
  | .dbgReq _ => true
  | .dbgLock _ => true
  | .dbgErase _ => true
  | .tokenSubmit _ _ => true
  | .challengeExpire => true
  | .scopeExpire => true
  | .spdmGetVersion _ => true
  | .spdmGetCapabilities _ => true
  | .spdmNegotiateAlgorithms _ _ _ => true
  | .spdmGetDigests _ => true
  | .spdmGetCertificate _ _ _ _ => true
  | .spdmChallenge _ _ _ => true
  | .spdmGetMeasurements _ _ _ _ => true
  | .spdmRespondIfReady _ _ _ => true
  | .spdmUnsupported _ _ => true
  | .mctpDatagram _ => true
  | .smbusPacket _ => true
  | .arpRequest _ => true
  | .icmpEcho _ _ => true
  | .dhcpExchange _ => true
  | .setEndpointId _ _ => true
  | .getEndpointId _ => true
  | .getMctpVersionSupport _ => true
  | .getMessageTypeSupport _ => true
  | .getVendorMessageSupport _ => true
  | .vendorRegRead _ _ => true
  | .vendorRegWrite _ _ _ => true
  | .getTid _ => true
  | .setTid _ _ => true
  | .getPldmVersion _ _ => true
  | .getPldmTypes _ => true
  | .getPldmCommands _ _ => true
  | .setEventReceiver _ _ => true
  | .getSensorReading _ _ => true
  | .queryDeviceIdentifiers _ => true
  | .getFirmwareParameters _ => true
  | .requestUpdate _ => true
  | .passComponentTable _ _ _ => true
  | .updateComponent _ _ _ => true
  | .requestFirmwareData _ _ => true
  | .transferComplete _ => true
  | .verifyComplete _ => true
  | .applyComplete _ => true
  | .activateFirmware _ _ => true
  | .pldmGetStatus _ => true
  | .cancelUpdateComponent _ => true
  | .cancelUpdate _ => true
  | .mstart _ => true
  | .mstop _ => true
  | .moff _ => true
  | .restart _ => true
  | .meridianStartDone _ _ => true
  | .meridianStopDone => true
  | .coreGate _ => true
  | .coreWake _ => true
  | .vinSample v => decide (v.mv < 65536)
  | .sensorSample temps _ _ => temps.toList.all (fun t => decide (-128 ≤ t ∧ t < 128))
  | .clockStep => true
  | .clamp _ => true
  | .clampEnd => true
  | .hourTick => true
  | .periodicPlan _ _ => true
  | .almReq _ _ _ => true
  | .pwrLimitWrite _ _ _ => true
  | .pgEn _ page _ => pageOk page
  | .pgSrst _ page _ => pageOk page
  | .softResetDone page => pageOk page
  | .pgDbg _ page => pageOk page
  | .pgFeclr _ page => pageOk page
  | .pgCntclr _ page => pageOk page
  | .eventClear _ page _ => pageOk page
  | .registerWrite _ _ _ _ => true
  | .controlWindowRead _ _ _ _ => true
  | .configurationRequest _ _ q =>
    match q.reg with
    | .other off => decide (off < 4096)
    | .busMaster | .payload | .readRequest | .powerState | .msixEnable | .msixMask | .vfEnable | .numVfs | .barSize | .vfBarSize
    | .capabilities => true
  | .perstRelease _ _ => true
  | .inputPowerReturn mv => decide (mv < 65536)
  | .doeDiscovery _ _ => true
  | .tileTableRewriteDone => true
  | .restartDone => true
  | .coreWakeDone _ => true

end Sys2Proof
end

