-- ==== Sys2Proof/Safety.lean ====
section
/-! DEFINITION. What counts as a safe step and a sound state, and what claims say of a command: that it answers a next state,
and what it leaves alone. -/
namespace Sys2Proof.Machine

/-- A step that does not stop the block. -/
def Safe (s : State) : Prop := ∃ t, step s = .next t

/-- The byte memory is in its canonical form. -/
def MemSound (s : State) : Prop := Memory.wf s.mem = true

/-- A command answers a next state that has a property. -/
def Runs (i : Instr) (s : State) (P : State → Prop) : Prop := ∃ t, exec i s = .next t ∧ P t

/-! ### Frames -/

/-- Every register word is as it was but those of one page at some offsets. -/
def WordsKept (page : Nat) (offs : List Nat) (s t : State) : Prop :=
  ∀ b p o, p < 16384 → o < 4096 → (p ≠ page ∨ o / 4 * 4 ∉ offs) → rawWord t b p o = rawWord s b p o

/-- Nothing differs but objects and what the module has noted of its readiness, which rests on one of them (R385). -/
def ObjsOnly (s t : State) : Prop :=
  t = { s with objs := t.objs, bnd := { s.bnd with kept := t.bnd.kept, readyAt := t.bnd.readyAt } }

/-- Nothing differs but register words and, after a write to the boundary or the reduction page, what the module has noted of its
readiness (R385). -/
def RegsOnly (page : Nat) (s t : State) : Prop :=
  t = { s with regs := t.regs, bnd := { s.bnd with kept := t.bnd.kept, readyAt := t.bnd.readyAt } } ∧
    (page ≠ 0x007 → page ≠ 0x011 → t.bnd = s.bnd)

/-- Every core but one is as it was. -/
def CoresKept (c : CoreId) (s t : State) : Prop := ∀ d, d ≠ c → t.core d = s.core d

/-- Every DMA channel but one is as it was. -/
def ChansKept (ch : ChanId) (s t : State) : Prop := ∀ k, k ≠ ch → t.chan k = s.chan k

/-- An event of a page was logged once between two states (R494, R496): its flag is set and its saturating counter
has risen. -/
def Logged (page flag : Nat) (s t : State) : Prop :=
  bitOf (rawWord t 0 page 0x010) flag = true ∧
    rawWord t 0 page (0x020 + 4 * flag) = min (rawWord s 0 page (0x020 + 4 * flag) + 1) (2 ^ 32 - 1)

/-! ### The control core -/

/-- Core c stands at an instruction that can issue (R167), the word of which is not poisoned (R413). -/
def Issues (c : CoreId) (s : State) : Prop :=
  (s.core c).canIssue = true ∧ poisoned s (ipageBase c (s.core c).ctl.page + 4 * (s.core c).ctl.pc) 4 = false

/-- CC_INSTR and CC_STALLS of the control page (R176). -/
def ccOffs : List Nat := [0x118, 0x11C, 0x128, 0x12C]

/-- Nothing differs but the control state of core c and its counts of instructions and stalls. -/
def CtlOnly (c : CoreId) (s t : State) : Prop :=
  t = { s with cores := t.cores, regs := t.regs } ∧ CoresKept c s t ∧
    t.core c = { s.core c with ctl := (t.core c).ctl } ∧ WordsKept (coreP c 0) ccOffs s t

/-- Every scalar register of core c but one reads as it did. -/
def SregsKept (c : CoreId) (rd : Nat) (s t : State) : Prop := ∀ r, r ≠ rd → sget (t.core c) r = sget (s.core c) r

/-- An instruction of core c has written its result to rd (R158: a write to S0 is discarded) and gone on to the next
instruction, and nothing else differs but the counts of its control page. -/
def Result (c : CoreId) (rd : BitVec 6) (v : W64) (s t : State) : Prop :=
  sget (t.core c) rd.toNat = (if rd = 0 then 0 else v) ∧ SregsKept c rd.toNat s t ∧
    (t.core c).ctl.pc = (s.core c).ctl.pc + 1 ∧ CtlOnly c s t

/-- Core c has skipped an instruction (R165): it writes no register and no memory, goes on to the next instruction,
and SKIP is
logged on the control page; nothing else differs but reports and vectors, which events drive. -/
def Skipped (c : CoreId) (s t : State) : Prop :=
  (t.core c).ctl.pc = (s.core c).ctl.pc + 1 ∧ (∀ r, sget (t.core c) r = sget (s.core c) r) ∧
    Logged (coreP c 0) 0 s t ∧ CoresKept c s t ∧ t.core c = { s.core c with ctl := (t.core c).ctl } ∧
    t = { s with cores := t.cores, regs := t.regs, rel := t.rel, hosts := t.hosts }

/-! ### The engines of a core -/

/-- Nothing differs but core c and the registers of its own pages. -/
def CoreOnly (c : CoreId) (s t : State) : Prop :=
  t = { s with cores := t.cores, regs := t.regs } ∧ CoresKept c s t ∧
    ∀ b p o, p < 16384 → o < 4096 → (∀ k, k < 16 → p ≠ coreP c k) → rawWord t b p o = rawWord s b p o

/-- Nothing differs but core c, registers, and what events drive: reports and vectors. -/
def CoreEvent (c : CoreId) (s t : State) : Prop :=
  t = { s with cores := t.cores, regs := t.regs, rel := t.rel, hosts := t.hosts } ∧ CoresKept c s t

/-- A command stands at the head of a queue of core c, whose task is not being stopped, and no earlier command of a guarded
replay is unfinished (R180, R215). -/
def Stands (c : CoreId) (q : Queue) (e : QEntry) (s : State) : Prop :=
  (queueOf (s.core c) q).head? = some e ∧ (s.core c).live = true ∧ replayClear (s.core c) e = true

/-- The head of a queue has left it and is counted as taken (R180, R202). -/
def Popped (c : CoreId) (q : Queue) (s t : State) : Prop :=
  queueOf (t.core c) q = (queueOf (s.core c) q).tail ∧
    rawPair t 0 (coreP c 2) (0x108 + 8 * q.code) = min (rawPair s 0 (coreP c 2) (0x108 + 8 * q.code) + 1) (2 ^ 64 - 1)

/-- A command is in execution. -/
def Began (c : CoreId) (fl : Flight) (s t : State) : Prop :=
  (t.core c).queues.flights = (s.core c).queues.flights ++ [fl]

/-- A command has completed: it is in execution no more, and with SIG set its signal is held to the commit of the task, in a
check run not (R181, R218). -/
def Completed (c : CoreId) (fl : Flight) (n : Nat) (s t : State) : Prop :=
  (t.core c).queues.flights = (s.core c).queues.flights.erase fl ∧
    ∀ k, (s.core c).sched.task = some k → k.run ≠ .check →
      (t.core c).sched.task.map (·.held) = some (match fl.sig with
        | none => k.held
        | some o => k.held ++ [.add o (BitVec.ofNat 64 n)])

/-- A vector command of an operation stands and passes the checks of R201. -/
def VecTakes (c : CoreId) (op : Nat) (e : QEntry) (s : State) : Prop :=
  Stands c .vector e s ∧ cmdOp e.word = op ∧ vecCause s c (vcmdOf e.word) = 0

/-- A vector command has been taken and is in execution, to deliver an observation or none (R81). -/
def VecDone (c : CoreId) (e : QEntry) (obs : Option (Nat × Option Int × Bool)) (s t : State) : Prop :=
  Popped c .vector s t ∧ Began c (flightOf .vector e) s t ∧
    (t.core c).vec.running = (s.core c).vec.running ++ [(flightOf .vector e, obs)]

/-- Every vector register but n registers from r is stored as it was. -/
def VregsKept (c : CoreId) (r n : Nat) (s t : State) : Prop :=
  ∀ p, (p.1 < r * 2048 ∨ (r + n) * 2048 ≤ p.1) → (p ∈ (t.core c).vec.regs ↔ p ∈ (s.core c).vec.regs)

/-- The generators of core c are as they were. -/
def DrawsKept (c : CoreId) (s t : State) : Prop :=
  (t.core c).vec.genSeed = (s.core c).vec.genSeed ∧ (t.core c).vec.genKey = (s.core c).vec.genKey ∧
    (t.core c).vec.genCount = (s.core c).vec.genCount

/-- A byte of memory is outside every range of a list. -/
def Outside (x : Nat) (l : List (Nat × Nat)) : Prop := ∀ r ∈ l, x < r.1 ∨ r.1 + r.2 ≤ x

/-! ### Fabric messages -/

/-- A message of a kind is for this module, and the first of its flow and incarnation or the next one expected (R362). -/
def Arrives (m : Msg) (kind : Nat) (s : State) : Prop :=
  m.dest = moduleId s ∧ m.kind = kind ∧
    ∀ i e, mfind s.txn.flows ((m.src * 8 + m.vc) * 64 + m.flow) = some (i, e) → m.sinc = i → m.fseq = e

/-- The state when a message has been accepted and has not yet acted: its flow expects the next one (R362). -/
def arrived (m : Msg) (s : State) : State :=
  { s with
    ick := { s.ick with inbox := s.ick.inbox.erase m }
    txn := { s.txn with flows := mset s.txn.flows ((m.src * 8 + m.vc) * 64 + m.flow) (m.sinc, (m.fseq + 1) % 65536) } }

/-- One message has been offered to the fabric behind those that waited. -/
def Sent (s t : State) (P : Msg → Prop) : Prop := ∃ m, t.ick.outbox = s.ick.outbox ++ [m] ∧ m.src = moduleId s ∧ P m

end Sys2Proof.Machine
end

