-- ==== Sys2Proof/Certificates/Slice0/Obligations.lean ====
section
/-! DEFINITION. The statements for the provers: the effect of every command where it completes, with its frame; what the forms of
the fabric and the numbers mean; reset; and what every step keeps. -/
open Sys2Proof Sys2Proof.Machine

/-! ### The control core -/

/-- ALU results (R163, R164), one line per fn, with what an ALU instruction leaves alone.
Immediate instructions, LI and LUS (R163). -/
def Obligations.ScalarResults : Prop :=
  (∀ (c : CoreId) (rd rs1 rs2 : BitVec 6) (s : State), Issues c s →
     let x := sget (s.core c) rs1.toNat
     let y := sget (s.core c) rs2.toNat
     Runs (.aluAdd c rd rs1 rs2) s (Result c rd (x + y) s) ∧
     Runs (.aluSub c rd rs1 rs2) s (Result c rd (x - y) s) ∧
     Runs (.aluAnd c rd rs1 rs2) s (Result c rd (x &&& y) s) ∧
     Runs (.aluOr c rd rs1 rs2) s (Result c rd (x ||| y) s) ∧
     Runs (.aluXor c rd rs1 rs2) s (Result c rd (x ^^^ y) s) ∧
     Runs (.aluShl c rd rs1 rs2) s (Result c rd (x <<< (y &&& 63)) s) ∧
     Runs (.aluShr c rd rs1 rs2) s (Result c rd (x >>> (y &&& 63)) s) ∧
     Runs (.aluSar c rd rs1 rs2) s (Result c rd (x.sshiftRight (y &&& 63).toNat) s) ∧
     Runs (.aluSlt c rd rs1 rs2) s (Result c rd (if x.toInt < y.toInt then 1 else 0) s) ∧
     Runs (.aluSltu c rd rs1 rs2) s (Result c rd (if x.toNat < y.toNat then 1 else 0) s) ∧
     Runs (.aluMul c rd rs1 rs2) s (Result c rd (x * y) s) ∧
     Runs (.aluMulhu c rd rs1 rs2) s (Result c rd (((x.zeroExtend 128 * y.zeroExtend 128) >>> 64).setWidth 64) s) ∧
     Runs (.aluMulh c rd rs1 rs2) s (Result c rd (BitVec.ofInt 64 ((x.toInt * y.toInt) / 2 ^ 64)) s) ∧
     Runs (.aluDiv c rd rs1 rs2) s (Result c rd (if y = 0 then -1 else x.sdiv y) s) ∧
     Runs (.aluDivu c rd rs1 rs2) s (Result c rd (if y = 0 then -1 else x / y) s) ∧
     Runs (.aluRem c rd rs1 rs2) s (Result c rd (if y = 0 then x else x.srem y) s) ∧
     Runs (.aluRemu c rd rs1 rs2) s (Result c rd (x % y) s) ∧
     Runs (.aluMin c rd rs1 rs2) s (Result c rd (if x.toInt ≤ y.toInt then x else y) s) ∧
     Runs (.aluMax c rd rs1 rs2) s (Result c rd (if x.toInt ≤ y.toInt then y else x) s) ∧
     Runs (.aluMinu c rd rs1 rs2) s (Result c rd (if x.toNat ≤ y.toNat then x else y) s) ∧
     Runs (.aluMaxu c rd rs1 rs2) s (Result c rd (if x.toNat ≤ y.toNat then y else x) s)) ∧
  (∀ (c : CoreId) (rd rs1 : BitVec 6) (imm : BitVec 12) (imm18 : BitVec 18) (s : State), Issues c s →
     let x := sget (s.core c) rs1.toNat
     let y := imm.signExtend 64
     Runs (.addi c rd rs1 imm) s (Result c rd (x + y) s) ∧
     Runs (.andi c rd rs1 imm) s (Result c rd (x &&& y) s) ∧
     Runs (.ori c rd rs1 imm) s (Result c rd (x ||| y) s) ∧
     Runs (.xori c rd rs1 imm) s (Result c rd (x ^^^ y) s) ∧
     Runs (.shli c rd rs1 imm) s (Result c rd (x <<< (imm.toNat % 64)) s) ∧
     Runs (.shri c rd rs1 imm) s (Result c rd (x >>> (imm.toNat % 64)) s) ∧
     Runs (.sari c rd rs1 imm) s (Result c rd (x.sshiftRight (imm.toNat % 64)) s) ∧
     Runs (.slti c rd rs1 imm) s (Result c rd (if x.toInt < imm.toInt then 1 else 0) s) ∧
     Runs (.li c rd imm18) s (Result c rd (imm18.signExtend 64) s) ∧
     Runs (.lus c rd imm18) s
       (Result c rd ((sget (s.core c) rd.toNat <<< 16) ||| (imm18.setWidth 16).zeroExtend 64) s))

/-- R164: the corners of division, with no event: CtlOnly, which Result holds, keeps every event register. -/
def Obligations.DivisionCorners : Prop :=
  ∀ (c : CoreId) (rd rs1 rs2 : BitVec 6) (s : State), Issues c s →
    let x := sget (s.core c) rs1.toNat
    let y := sget (s.core c) rs2.toNat
    (y = 0 →
      Runs (.aluDiv c rd rs1 rs2) s (Result c rd (BitVec.allOnes 64) s) ∧
      Runs (.aluDivu c rd rs1 rs2) s (Result c rd (BitVec.allOnes 64) s) ∧
      Runs (.aluRem c rd rs1 rs2) s (Result c rd x s) ∧
      Runs (.aluRemu c rd rs1 rs2) s (Result c rd x s)) ∧
    (x.toInt = -2 ^ 63 → y.toInt = -1 →
      Runs (.aluDiv c rd rs1 rs2) s (Result c rd (BitVec.ofInt 64 (-2 ^ 63)) s) ∧
      Runs (.aluRem c rd rs1 rs2) s (Result c rd 0 s))

/-- Loads (R163): bytes of data memory at rs1 + sext(imm12), sign- or zero-extended, when the access is aligned, ends within
data memory and meets no poison. Memory is not written.
Stores (R163): the low bytes of rt, little-endian (R7), at rs1 + sext(imm12) of data memory, counted into the digest of the
core's task as a local write (R404); every other byte of memory, and all else but the core's control state and counts, stays. -/
def Obligations.DataMemoryEffects : Prop :=
  (∀ (c : CoreId) (rd rs1 : BitVec 6) (imm : BitVec 12) (s : State), Issues c s →
     let a := (sget (s.core c) rs1.toNat + imm.signExtend 64).toNat
     let good := fun n => a % n = 0 ∧ a + n ≤ 65536 ∧ poisoned s (dmemBase c + a) n = false
     let v := fun n => loadN s (dmemBase c + a) n
     (good 1 → Runs (.lb c rd rs1 imm) s (Result c rd ((BitVec.ofNat 8 (v 1)).signExtend 64) s) ∧
       Runs (.lbu c rd rs1 imm) s (Result c rd ((BitVec.ofNat 8 (v 1)).zeroExtend 64) s)) ∧
     (good 2 → Runs (.lh c rd rs1 imm) s (Result c rd ((BitVec.ofNat 16 (v 2)).signExtend 64) s) ∧
       Runs (.lhu c rd rs1 imm) s (Result c rd ((BitVec.ofNat 16 (v 2)).zeroExtend 64) s)) ∧
     (good 4 → Runs (.lw c rd rs1 imm) s (Result c rd ((BitVec.ofNat 32 (v 4)).signExtend 64) s) ∧
       Runs (.lwu c rd rs1 imm) s (Result c rd ((BitVec.ofNat 32 (v 4)).zeroExtend 64) s)) ∧
     (good 8 → Runs (.ld c rd rs1 imm) s (Result c rd (BitVec.ofNat 64 (v 8)) s))) ∧
  (∀ (c : CoreId) (rt rs1 : BitVec 6) (imm : BitVec 12) (s : State), Issues c s →
     let a := (sget (s.core c) rs1.toNat + imm.signExtend 64).toNat
     let v := sget (s.core c) rt.toNat
     let stored := fun (n : Nat) (t : State) =>
       (∀ i, i < n → memGet t.mem (dmemBase c + a + i) = (v >>> (8 * i)).setWidth 8) ∧
       (∀ x, x < dmemBase c + a ∨ dmemBase c + a + n ≤ x → memGet t.mem x = memGet s.mem x) ∧
       (∀ r, sget (t.core c) r = sget (s.core c) r) ∧ (t.core c).ctl.pc = (s.core c).ctl.pc + 1 ∧
       CtlOnly c (noteWrite c (dmemBase c + a) (bytesOfNat n v.toNat) { s with mem := t.mem }) t
     let good := fun n => a % n = 0 ∧ a + n ≤ 65536
     (good 1 → Runs (.sb c rt rs1 imm) s (stored 1)) ∧ (good 2 → Runs (.sh c rt rs1 imm) s (stored 2)) ∧
     (good 4 → Runs (.sw c rt rs1 imm) s (stored 4)) ∧ (good 8 → Runs (.sd c rt rs1 imm) s (stored 8)))

/-- Branches and jumps whose target lies in the page (R163, R165 cause 3, R167).
NOP, WAITCY with its end, RDCYC, TEND and running past the last instruction (R163, R166, R167). -/
def Obligations.ControlFlow : Prop :=
  (∀ (c : CoreId) (rd rs1 rs2 : BitVec 6) (off imm : BitVec 12) (off18 : BitVec 18) (s : State), Issues c s →
     let x := sget (s.core c) rs1.toNat
     let y := sget (s.core c) rs2.toNat
     let pc := (s.core c).ctl.pc
     let inPage := fun (t : Int) => 0 ≤ t ∧ t < 16384
     let goes := fun (taken : Prop) (t : State) =>
       (taken → ((t.core c).ctl.pc : Int) = pc + off.toInt) ∧ (¬taken → (t.core c).ctl.pc = pc + 1) ∧
       (∀ r, sget (t.core c) r = sget (s.core c) r) ∧ CtlOnly c s t
     (inPage (pc + off.toInt) →
       Runs (.beq c rs1 rs2 off) s (goes (x = y)) ∧ Runs (.bne c rs1 rs2 off) s (goes (x ≠ y)) ∧
       Runs (.blt c rs1 rs2 off) s (goes (x.toInt < y.toInt)) ∧ Runs (.bge c rs1 rs2 off) s (goes (y.toInt ≤ x.toInt)) ∧
       Runs (.bltu c rs1 rs2 off) s (goes (x.toNat < y.toNat)) ∧ Runs (.bgeu c rs1 rs2 off) s (goes (y.toNat ≤ x.toNat))) ∧
     (inPage (pc + off18.toInt) → Runs (.jal c rd off18) s (fun t =>
       ((t.core c).ctl.pc : Int) = pc + off18.toInt ∧
       sget (t.core c) rd.toNat = (if rd = 0 then 0 else BitVec.ofNat 64 (pc + 1)) ∧ SregsKept c rd.toNat s t ∧ CtlOnly c s t)) ∧
     Runs (.jalr c rd rs1 imm) s (fun t =>
       (t.core c).ctl.pc = ((x + imm.signExtend 64).setWidth 14).toNat ∧
       sget (t.core c) rd.toNat = (if rd = 0 then 0 else BitVec.ofNat 64 (pc + 1)) ∧ SregsKept c rd.toNat s t ∧ CtlOnly c s t)) ∧
  (∀ (c : CoreId) (rd : BitVec 6) (imm : BitVec 18) (n : Nat) (s : State),
     (Issues c s →
       Runs (.nop c) s (fun t => (t.core c).ctl.pc = (s.core c).ctl.pc + 1 ∧ (∀ r, sget (t.core c) r = sget (s.core c) r) ∧
         CtlOnly c s t) ∧
       ((s.core c).guarded = false → Runs (.waitcy c imm) s (fun t => (t.core c).ctl.waitcy = some imm.toNat ∧
         (t.core c).ctl.pc = (s.core c).ctl.pc ∧ (∀ r, sget (t.core c) r = sget (s.core c) r) ∧ CtlOnly c s t)) ∧
       Runs (.rdcyc c rd) s (fun t => sget (t.core c) rd.toNat = (if rd = 0 then 0 else BitVec.ofNat 64 (s.core c).ctl.cyc) ∧
         SregsKept c rd.toNat s t ∧ (t.core c).ctl.pc = (s.core c).ctl.pc + 1 ∧ t.mem = s.mem) ∧
       Runs (.tend c) s (fun t => (t.core c).ctl.running = false ∧ (t.core c).ctl.ended = true ∧
         (∀ r, sget (t.core c) r = sget (s.core c) r) ∧ CtlOnly c s t)) ∧
     ((s.core c).ctl.waitcy = some n → Runs (.waitcyExpire c) s (fun t =>
       (t.core c).ctl.waitcy = none ∧ (t.core c).ctl.pc = (s.core c).ctl.pc + 1 ∧
       (t.core c).ctl.cyc = (s.core c).ctl.cyc + (max 1 n - 1) ∧ (∀ r, sget (t.core c) r = sget (s.core c) r) ∧ CtlOnly c s t)) ∧
     ((s.core c).ctl.running = true → 16384 ≤ (s.core c).ctl.pc → (s.core c).live = true → Runs (.pcend c) s (fun t =>
       (t.core c).ctl.running = false ∧ (t.core c).ctl.ended = true ∧ Logged (coreP c 0) 3 s t ∧ CoresKept c s t ∧ t.mem = s.mem)))

/-- R165: the skips of the control core, cause by cause; a skipped instruction writes nothing and is logged once. -/
def Obligations.SkippedInstructions : Prop :=
  ∀ (c : CoreId) (q : Queue) (f : Bool) (rd rs1 rs2 : BitVec 6) (imm : BitVec 12) (imm18 : BitVec 18) (word : BitVec 32)
    (s : State), Issues c s →
    let a := (sget (s.core c) rs1.toNat + imm.signExtend 64).toNat
    let bad := fun n => a % n ≠ 0 ∨ 65536 < a + n
    let outside := fun (t : Int) => t < 0 ∨ 16384 ≤ t
    let noPage := fun n => a < 0xF0000000000 ∨ 0xF0001000000 ≤ a ∨ a % n ≠ 0
    (reservedWord word.toNat = true → Runs (.reservedOpcode c word) s (Skipped c s)) ∧
    (bad 1 → ∀ i ∈ [Instr.lb c rd rs1 imm, .lbu c rd rs1 imm, .sb c rd rs1 imm], Runs i s (Skipped c s)) ∧
    (bad 2 → ∀ i ∈ [Instr.lh c rd rs1 imm, .lhu c rd rs1 imm, .sh c rd rs1 imm], Runs i s (Skipped c s)) ∧
    (bad 4 → ∀ i ∈ [Instr.lw c rd rs1 imm, .lwu c rd rs1 imm, .sw c rd rs1 imm], Runs i s (Skipped c s)) ∧
    (bad 8 → ∀ i ∈ [Instr.ld c rd rs1 imm, .sd c rd rs1 imm], Runs i s (Skipped c s)) ∧
    (((sget (s.core c) rs1.toNat).toNat % 16 ≠ 0 ∨ 65536 < (sget (s.core c) rs1.toNat).toNat + 16) →
      Runs (.pushm c q f rd rs1 rs2) s (Skipped c s)) ∧
    (outside ((s.core c).ctl.pc + imm.toInt) →
      ∀ i ∈ [Instr.beq c rs1 rs2 imm, .bne c rs1 rs2 imm, .blt c rs1 rs2 imm, .bge c rs1 rs2 imm, .bltu c rs1 rs2 imm,
        .bgeu c rs1 rs2 imm], Runs i s (Skipped c s)) ∧
    (outside ((s.core c).ctl.pc + imm18.toInt) → Runs (.jal c rd imm18) s (Skipped c s)) ∧
    (noPage 4 → Runs (.rdreg c rd rs1 imm) s (Skipped c s) ∧ Runs (.wrreg c rd rs1 imm) s (Skipped c s)) ∧
    (noPage 8 → Runs (.rdreg64 c rd rs1 imm) s (Skipped c s) ∧ Runs (.wrreg64 c rd rs1 imm) s (Skipped c s)) ∧
    (f = true → q ≠ .vector → Runs (.push c q f rd rs1 rs2) s (Skipped c s) ∧ Runs (.pushm c q f rd rs1 rs2) s (Skipped c s)) ∧
    (rs1 = 63 → Runs (.push c q f rd rs1 rs2) s (Skipped c s)) ∧
    ((s.core c).guarded = true → Runs (.waitcy c imm18) s (Skipped c s))

/-- PUSH, PUSHM and QDEPTH (R163, R169 to R171): the command of 128 bits, its top word replaced when F is set, goes to the back
of its queue and rd is 1; a full queue leaves it out, rd is 0 and, outside a guarded replay, nothing of the core changes but its control state, and nothing else but what
the logged drop drives: registers, reports, vectors and the class of the task's step (R397).
Synchronisation-object operations (R167, R218, R220): READ will return the value; ADD and SET are held to the task's commit,
behind what it holds, and will return 0; the result that returns is written and the next instruction follows. -/
def Obligations.PushAndSopEffects : Prop :=
  (∀ (c : CoreId) (q : Queue) (f : Bool) (rd rs1 rs2 : BitVec 6) (s : State), Issues c s → (f = true → q = .vector) →
     let reg := fun n => sget (s.core c) n
     let a := (reg rs1.toNat).toNat
     let pair := reg (rs1.toNat + 1) ++ reg rs1.toNat
     let held := BitVec.ofNat 128 (loadN s (dmemBase c + a) 16)
     let word := fun (w : BitVec 128) => if f then (reg rs2.toNat).setWidth 32 ++ w.setWidth 96 else w
     let pushed := fun (w : BitVec 128) (t : State) =>
       ((queueOf (s.core c) q).length < capacity q →
         (∃ e, queueOf (t.core c) q = queueOf (s.core c) q ++ [e] ∧ e.word = word w) ∧
         sget (t.core c) rd.toNat = (if rd = 0 then 0 else 1)) ∧
       (capacity q ≤ (queueOf (s.core c) q).length → (s.core c).guarded = false →
         t.core c = { s.core c with ctl := (t.core c).ctl } ∧ sget (t.core c) rd.toNat = 0 ∧ Logged (coreP c 0) 1 s t ∧
         t = { s with cores := t.cores, regs := t.regs, rel := t.rel, hosts := t.hosts, bnd := t.bnd } ∧
         t.bnd = { s.bnd with charged := t.bnd.charged } ∧
         bitOf (mget 0 t.bnd.charged (((s.core c).sched.task.map (·.step)).getD s.bnd.step)) 4 = true) ∧
       ((s.core c).guarded = false → (t.core c).ctl.pc = (s.core c).ctl.pc + 1 ∧ SregsKept c rd.toNat s t ∧ CoresKept c s t ∧
         t.mem = s.mem ∧ t.objs = s.objs)
     (rs1 ≠ 63 → Runs (.push c q f rd rs1 rs2) s (pushed pair)) ∧
     (a % 16 = 0 → a + 16 ≤ 65536 → poisoned s (dmemBase c + a) 16 = false →
       Runs (.pushm c q f rd rs1 rs2) s (pushed held)) ∧
     Runs (.qdepth c q rd) s (Result c rd (BitVec.ofNat 64 (queueOf (s.core c) q).length) s)) ∧
  (∀ (c : CoreId) (rd rs1 rs2 : BitVec 6) (cycles r : Nat) (v : W64) (s : State),
     let o := (sget (s.core c) rs1.toNat).toNat % 2 ^ 17
     let x := sget (s.core c) rs2.toNat
     let waits := fun (result : W64) (t : State) =>
       (t.core c).ctl.sopWait = some (rd.toNat, result) ∧ (t.core c).ctl.pc = (s.core c).ctl.pc ∧
       (∀ n, sget (t.core c) n = sget (s.core c) n) ∧ t.objs = s.objs ∧ t.mem = s.mem ∧ CoresKept c s t
     let holds := fun (op : HeldOp) (t : State) =>
       ∀ k, (s.core c).sched.task = some k → k.run ≠ .check → ((t.core c).sched.task.map (·.held)) = some (k.held ++ [op])
     (Issues c s →
       Runs (.sopRead c rd rs1 rs2) s (waits (objGet s o)) ∧
       Runs (.sopAdd c rd rs1 rs2) s (fun t => waits 0 t ∧ holds (.add o x) t) ∧
       Runs (.sopSet c rd rs1 rs2) s (fun t => waits 0 t ∧ holds (.set o x) t)) ∧
     ((s.core c).ctl.sopWait = some (r, v) → Runs (.sopReturn c cycles) s (fun t =>
       sget (t.core c) r = (if r = 0 then 0 else v) ∧ SregsKept c r s t ∧ (t.core c).ctl.pc = (s.core c).ctl.pc + 1 ∧
       (t.core c).ctl.sopWait = none ∧ CtlOnly c s t)))

/-- Register accesses of the control core (R163, R167, R168): a read waits for its value, which is then written to rd as the page
answers it; a write reaches its page at once, as a request of the core, after the instruction has issued.
Where it rests on the model's reading, see log entry 7. -/
def Obligations.RegisterInstructions : Prop :=
  ∀ (c : CoreId) (rd rs1 : BitVec 6) (imm : BitVec 12) (cycles : Nat) (w : RegWait) (s : State),
    let a := (sget (s.core c) rs1.toNat + imm.signExtend 64).toNat
    let good := fun n => 0xF0000000000 ≤ a ∧ a < 0xF0001000000 ∧ a % n = 0
    let waits := fun (wide : Bool) (t : State) =>
      (t.core c).ctl.regWait = some ⟨rd.toNat, a, wide⟩ ∧ (t.core c).ctl.pc = (s.core c).ctl.pc ∧
      (∀ n, sget (t.core c) n = sget (s.core c) n) ∧ t.mem = s.mem ∧ CoresKept c s t
    let writes := fun (wide : Bool) (v : Nat) (t : State) =>
      ∃ u, CtlOnly c s u ∧ (u.core c).ctl.pc = (s.core c).ctl.pc + 1 ∧ (∀ n, sget (u.core c) n = sget (s.core c) n) ∧
        t = regWrite (.core c) ((a - 0xF0000000000) / 4096) (a % 4096) wide v u
    (Issues c s → good 4 → Runs (.rdreg c rd rs1 imm) s (waits false) ∧
      Runs (.wrreg c rd rs1 imm) s (writes false ((sget (s.core c) rd.toNat).toNat % 2 ^ 32))) ∧
    (Issues c s → good 8 → Runs (.rdreg64 c rd rs1 imm) s (waits true) ∧
      Runs (.wrreg64 c rd rs1 imm) s (writes true (sget (s.core c) rd.toNat).toNat)) ∧
    ((s.core c).ctl.regWait = some w → Runs (.regreadReturn c cycles) s (fun t =>
      ∃ u, CtlOnly c s u ∧ (∀ n, sget (u.core c) n = sget (s.core c) n) ∧
        let x := regRead (.core c) ((w.addr - 0xF0000000000) / 4096) (w.addr % 4096) w.wide u
        sget (t.core c) w.rd = (if w.rd = 0 then 0 else BitVec.ofNat 64 x.1) ∧
        (∀ r, r ≠ w.rd → sget (t.core c) r = sget (x.2.core c) r) ∧
        t = { x.2 with cores := t.cores } ∧ CoresKept c x.2 t ∧ (t.core c).ctl.regWait = none ∧
        (t.core c).ctl.pc = (x.2.core c).ctl.pc + 1))

/-! ### Queues and the cube array -/

/-- NOP and reserved OPs of the four queues (R181, R187, R201 check 1, R203): a NOP is taken and completes at once; a reserved OP
is taken, and BADOP is logged (OPSKIP for the vector queue). -/
def Obligations.NopsAndReservedOps : Prop :=
  ∀ (c : CoreId) (e : QEntry) (s : State),
    let done := fun (q : Queue) (t : State) => Popped c q s t ∧ Completed c (flightOf q e) 1 s t ∧ CoreOnly c s t ∧
      (t.core c).vec = (s.core c).vec ∧ (t.core c).array = (s.core c).array ∧ (t.core c).ctl = (s.core c).ctl
    let skipped := fun (q : Queue) (page flag : Nat) (t : State) => Popped c q s t ∧ Logged page flag s t ∧ CoreEvent c s t ∧
      t.core c = popQueue q (s.core c)
    (Stands c .matrix e s → (cmdOp e.word = 0 → Runs (.matrixNop c) s (done .matrix)) ∧
      (5 < cmdOp e.word → Runs (.matrixReservedOp c) s (skipped .matrix (coreP c 2) 0))) ∧
    (Stands c .vector e s → (cmdOp e.word = 0 → Runs (.vectorNop c) s (done .vector)) ∧
      (vecOpOk (vcmdOf e.word) = false → vecReady s c e = true → Runs (.vectorReservedOp c) s (skipped .vector (coreP c 5) 5))) ∧
    (Stands c .dma e s → (cmdOp e.word = 0 → Runs (.dmaNop c) s (done .dma)) ∧
      (1 < cmdOp e.word → Runs (.dmaReservedOp c) s (skipped .dma (coreP c 2) 0))) ∧
    (Stands c .reduce e s → (cmdOp e.word = 0 → Runs (.reduceNop c) s (done .reduce)) ∧
      (2 < cmdOp e.word → Runs (.reduceReservedOp c) s (skipped .reduce (coreP c 2) 0)))

/-- LOAD and the writing of its cube rows (R100 to R104, R189, R192, R201): the load goes to the bank the pointer does not name,
with the next load number; each row gets the load's number and its source's elements, zero outside the source; a failed check
skips the command with OPSKIP.
Where it rests on the model's reading, see log entries 37 and 41. -/
def Obligations.LoadEffects : Prop :=
  ∀ (c : CoreId) (e : QEntry) (j : LoadJob) (rest : List LoadJob) (row : Fin 32) (s : State),
    let r := treg s c (cmdBits e.word 39 32)
    let a := (s.core c).array
    let m := cmdBits e.word 49 41
    let d := cmdBits e.word 60 50
    let ok := r.blocks = true ∧ sizeOk 8 256 m = true ∧ sizeOk 32 (bankDepth (blockBits r.fmt)) d = true ∧
      sourceOk r (cmdBits e.word 83 64) (cmdBits e.word 115 96) = true
    (Stands c .matrix e s → cmdOp e.word = 1 → loaderFree a = true →
      (ok → Runs (.load c) s (fun t =>
        let b := (t.core c).array
        Popped c .matrix s t ∧ Began c (flightOf .matrix e) s t ∧ CoreOnly c s t ∧ b.loadSeq = a.loadSeq + 1 ∧
        (∃ x, b.loads = a.loads ++ [x] ∧ x.bank = 1 - a.pointer ∧ x.loadSeq = a.loadSeq + 1 ∧ x.m = m ∧ x.d = d ∧ x.rows = 0) ∧
        (bankOf b (1 - a.pointer)).issued = a.loadSeq + 1 ∧ b.pointer = a.pointer ∧ b.streams = a.streams ∧ b.words = a.words ∧
        (t.core c).cells = (s.core c).cells ∧ (t.core c).vec = (s.core c).vec)) ∧
      (¬ok → Runs (.load c) s (fun t =>
        Popped c .matrix s t ∧ Logged (coreP c 3) 0 s t ∧ CoreEvent c s t ∧ t.core c = popQueue .matrix (s.core c)))) ∧
    ((s.core c).array.loads = j :: rest → rest.all (fun x => decide (x.flight ≠ j.flight)) = true → j.rows = row.val →
      j.d ≤ 1024 → j.bank < 2 → rowHeld a j j.rows = false →
      let q := tregOf j.treg
      let spots := insideSpots q (loadSpots j j.rows)
      linesOk (s.core c) j.tileReg j.tag (spots.map (fun x => q.lineOf x.2.2.1 x.2.2.2)) = true →
      firstPoison s (spots.flatMap (fun x => elemBytes c q x.2.2.1 x.2.2.2)) = none →
      Runs (.loadComplete c row) s (fun t =>
        let b := bankOf (t.core c).array j.bank
        mget 0 b.rowSeq j.rows = j.loadSeq ∧
        (∀ i p, i < 8 → p < j.d →
          let u := if j.across then j.u0 + p else j.u0 + (8 * j.rows + i)
          let v := if j.across then j.v0 + (8 * j.rows + i) else j.v0 + p
          (mget ⟨0, 0⟩ b.elems ((8 * j.rows + i) * 1024 + p)).m = if u < q.u ∧ v < q.v then (blockElem s c q u v).m else 0) ∧
        ((j.rows + 1) * 8 ≠ j.m → (t.core c).array.loads = { j with rows := j.rows + 1 } :: rest) ∧
        ((j.rows + 1) * 8 = j.m → (t.core c).array.loads = rest ∧ Completed c j.flight 1 s t) ∧
        bankOf (t.core c).array (1 - j.bank) = bankOf a (1 - j.bank) ∧ (t.core c).array.streams = a.streams ∧
        (t.core c).cells = (s.core c).cells ∧ CoreOnly c s t))

/-- STREAM, its words and its completion (R53 to R61, R98, R102, R105 to R107, R123, R187, R192): a stream takes the bank its FLIP
selects and its masks, and its steps are planned in its group; each word enters with the slot filled for it; at a compute row every
enabled cell takes the word's block products, step by step under the group's mode, and no other cell changes; the check row and the
corner pass it on; the corner's last word completes the stream. A word that only moves on leaves every cell.
Where it rests on the model's reading, see log entries 37, 87 and 88. -/
def Obligations.StreamEffects : Prop :=
  ∀ (c : CoreId) (e : QEntry) (j : StreamJob) (rest : List StreamJob) (w : SWord) (row : Fin 33) (s : State),
    let k := s.core c
    let a := k.array
    let r := treg s c (cmdBits e.word 39 32)
    let b := if cmdBits e.word 52 52 = 1 then 1 - a.pointer else a.pointer
    let d := cmdBits e.word 94 84
    let g := cmdBits e.word 51 50
    let steps := streamSteps ((bankOf a b).depthBlocked && r.ax) d
    let mode := cmdBits e.word 49 48
    let mt := cmdBits e.word 47 40
    let mr := treg s c mt
    let ma := spaceBase c mr.space + 64 * mr.base
    let span := if mode = 1 then (0, 4) else if mode = 2 then (4, 132) else (0, 132)
    let pair := fun (i col n : Nat) (x : Partial) =>
      addPair j.sbits j.bits (mget ⟨0, 0⟩ (bankOf a j.bank).elems (i * 1024 + w.pos + n)) (mget ⟨0, 0⟩ w.elems (n * 256 + col)) x
    let products := fun (i col : Nat) =>
      if j.segment then
        if (w.pos + j.q) % 32 = 0 then
          [(j.stepBase + w.pos / 32, (List.range j.q).foldl (fun x n => pair i col n x) (mget Partial.empty a.partials (i * 256 + col)))]
        else []
      else (List.range j.q).map (fun n => (j.stepBase + w.pos + n, pair i col n Partial.empty))
    let takes := fun (x : Cell) (p : Nat × Partial) =>
      let y := groupOf k j.group
      let q := align p.2.p p.2.w y.anchor
      if y.mode = 0 then x.addSum p.2 q else x.compete (y.mode == 2) p.1 p.2 q
    (Stands c .matrix e s → cmdOp e.word = 2 → streamFree a = true → r.blocks = true →
      sizeOk 8 256 (cmdBits e.word 61 53) = true → sizeOk 32 1024 d = true →
      sourceOk r (cmdBits e.word 83 64) (cmdBits e.word 115 96) = true → ((bankOf a b).issued ≠ 0 → (bankOf a b).d = d) →
      (groupOf k g).state = 1 → (groupOf k g).limited = false →
      (groupOf k g).planned + steps ≤ stepLimit (groupOf k g).mode →
      (mode ≠ 0 → mr.covers (if mode = 1 then 4 else 132) = true ∧ linesOk k mt (mfind e.rcap mt) (maskLines mr mode) = true ∧
        poisoned s (ma + span.1) (span.2 - span.1) = false) →
      Runs (.stream c) s (fun t =>
        Popped c .matrix s t ∧ Began c (flightOf .matrix e) s t ∧ CoreOnly c s t ∧ (t.core c).array.pointer = b ∧
        (∃ x, (t.core c).array.streams = a.streams ++ [x] ∧ x.group = g ∧ x.bank = b ∧ x.d = d ∧ x.entered = 0 ∧
          x.opens = a.pendingOpens ∧ x.rowMask = (if mode % 2 = 1 then loadN s ma 4 else 2 ^ 32 - 1) ∧
          x.blockMask = (if 2 ≤ mode then loadN s (ma + 4) 128 else 2 ^ 1024 - 1)) ∧ (t.core c).array.pendingOpens = [] ∧
        (groupOf (t.core c) g).planned = (groupOf k g).planned + steps ∧ (t.core c).cells = k.cells ∧
        (t.core c).array.words = a.words)) ∧
    (k.live = true → a.streams = j :: rest → j.before = 0 →
      Runs (.streamWordEntry c) s (fun t =>
        (∃ x, (t.core c).array.words = a.words ++ [x] ∧ x.row = 0 ∧ x.pos = j.entered * j.q ∧
          x.job = some { j with entered := j.entered + 1 } ∧ (x.last = true ↔ j.entered + 1 = j.words) ∧
          (x.elems, x.tagOk, x.bad) = fillSlot s c j x.pos) ∧
        rawPair t 0 (coreP c 3) 0x108 = min (rawPair s 0 (coreP c 3) 0x108 + 1) (2 ^ 64 - 1) ∧
        (t.core c).cells = k.cells ∧ (t.core c).array.loads = a.loads ∧ CoreOnly c s t)) ∧
    (k.live = true → a.words.find? (fun x => decide (x.row = row.val)) = some w →
      (w.job = none → row.val < 32 → Runs (.streamWordRow c row) s (fun t =>
        (t.core c).cells = k.cells ∧ (t.core c).array.words = replaceWord row.val { w with row := row.val + 1 } a.words ∧
        CoreOnly c s t)) ∧
      (w.job = some j → row.val < 32 → (w.pos = 0 → bankRowOk a j row.val = true) →
        (row.val = 0 → w.tagOk = true ∧ w.bad = none) → j.n ≤ 256 → j.group < 4 → Runs (.streamWordRow c row) s (fun t =>
        (∀ i col, i < 256 → col < 256 → cellOf (t.core c) j.group i col =
          if i / 8 = row.val ∧ col ∈ onColumns j row.val then (products i col).foldl takes (cellOf k j.group i col)
          else cellOf k j.group i col) ∧
        (∀ h i col, h < 4 → h ≠ j.group → i < 256 → col < 256 → cellOf (t.core c) h i col = cellOf k h i col) ∧
        (w.pos = 0 → mfind (t.core c).array.rowBank row.val = some j.bank) ∧
        (∃ x, x.row = row.val + 1 ∧ x.job = some j ∧ x.pos = w.pos ∧
          (t.core c).array.words = replaceWord row.val x a.words) ∧
        rawPair t 0 (coreP c 3) 0x110 =
          min (rawPair s 0 (coreP c 3) 0x110 + (onColumns j row.val).length / 8) (2 ^ 64 - 1) ∧
        (t.core c).vec = k.vec ∧ (t.core c).queues = k.queues ∧ CoreOnly c s t)) ∧
      (row.val = 32 → Runs (.streamWordRow c row) s (fun t =>
        (t.core c).cells = k.cells ∧ (∀ h ∈ w.closes, (groupOf (t.core c) h).markerOut = true) ∧
        (t.core c).array.words = (if w.last = true ∧ w.job.isSome = true
          then replaceWord 32 { w with row := 33, closes := [] } a.words else a.words.erase w) ∧ CoreOnly c s t))) ∧
    (a.words.find? (fun x => decide (x.row = 33)) = some w → w.job = some j → Runs (.streamComplete c) s (fun t =>
      (t.core c).array.words = a.words.erase w ∧ Completed c j.flight 1 s t ∧ (t.core c).cells = k.cells ∧ CoreOnly c s t))

/-- GOPEN, GCLOSE, the close and GREL (R62 to R66, R78, R79, R190, R192): the states FREE, OPEN, CLOSING, CLOSED follow one another; a
group opens empty, on the anchor of its calibration slot when CAL is 1, a slot that is OFF skipping it with CALOFF; the close keeps
the cells; a command of a wrong state is skipped with SKIP. Opening a group clears marks of its accumulators (R411).
Where it rests on the model's reading, see log entries 17 and 82. -/
def Obligations.GroupEffects : Prop :=
  ∀ (c : CoreId) (e : QEntry) (n : Fin 4) (s : State),
    let k := s.core c
    let w := e.word
    let g := cmdBits w 33 32
    let x := groupOf k g
    let skipped := fun (t : State) => Popped c .matrix s t ∧ Logged (coreP c 4) 4 s t ∧ CoreEvent c s t ∧
      t.core c = popQueue .matrix k
    let cal := cmdBits w 37 37 = 1
    let slot := cmdBits w 61 48
    (Stands c .matrix e s → cmdOp w = 3 → cal → x.state = 0 → cmdBits w 35 34 ≠ 3 → calOff s slot = true →
      Runs (.gopen c) s (fun t => Popped c .matrix s t ∧ Logged 0x010 4 s t ∧ CoreEvent c s t ∧ t.core c = popQueue .matrix k)) ∧
    (Stands c .matrix e s → cmdOp w = 3 → (cal → calOff s slot = false ∧ calInForce s slot (taskStep s c) = true) → x.state = 0 →
      cmdBits w 35 34 ≠ 3 →
      Runs (.gopen c) s (fun t =>
        let y := groupOf (t.core c) g
        Popped c .matrix s t ∧ Completed c (flightOf .matrix e) 1 s t ∧ CoreOnly c { s with poison := t.poison } t ∧
        (∀ l ∈ t.poison, l ∈ s.poison) ∧ y.state = 1 ∧ y.mode = cmdBits w 35 34 ∧
        (cal → y.anchor = calAnchor s slot (taskStep s c) ∧ y.cal = some (slot, taskStep s c)) ∧
        (¬cal → y.anchor = signedOf 10 (cmdBits w 47 38) ∧ y.cal = none) ∧ y.planned = 0 ∧ y.steps = 0 ∧
        (∀ i q, i < 256 → q < 256 → cellOf (t.core c) g i q = Cell.zero) ∧
        (∀ h i q, h ≠ g → h < 4 → i < 256 → q < 256 → cellOf (t.core c) h i q = cellOf k h i q) ∧
        (∀ h, h < 4 → h ≠ g → groupOf (t.core c) h = groupOf k h) ∧
        (t.core c).array.pendingOpens = k.array.pendingOpens ++ [g])) ∧
    (Stands c .matrix e s → cmdOp w = 3 → gopenReady s c e = true → x.state = 1 ∨ cmdBits w 35 34 = 3 →
      Runs (.gopen c) s skipped) ∧
    (Stands c .matrix e s → cmdOp w = 4 →
      (x.state = 1 → Runs (.gclose c) s (fun t =>
        Popped c .matrix s t ∧ Began c (flightOf .matrix e) s t ∧ CoreOnly c s t ∧ (groupOf (t.core c) g).state = 2 ∧
        (groupOf (t.core c) g).closer = some (flightOf .matrix e) ∧ (t.core c).cells = k.cells ∧
        (∀ h, h < 4 → h ≠ g → groupOf (t.core c) h = groupOf k h))) ∧
      (x.state ≠ 1 → Runs (.gclose c) s skipped)) ∧
    ((groupOf k n.val).state = 2 → (groupOf k n.val).markerOut = true → Runs (.groupClosed c n) s (fun t =>
      (groupOf (t.core c) n.val).state = 3 ∧ (t.core c).cells = k.cells ∧ (t.core c).checks = k.checks ∧ t.mem = s.mem ∧
      (∀ h, h < 4 → h ≠ n.val → groupOf (t.core c) h = groupOf k h) ∧ CoresKept c s t ∧
      (∀ fl, (groupOf k n.val).closer = some fl → (t.core c).queues.flights = k.queues.flights.erase fl))) ∧
    (Stands c .matrix e s → cmdOp w = 5 →
      (x.state = 3 → Runs (.grel c) s (fun t =>
        Popped c .matrix s t ∧ Completed c (flightOf .matrix e) 1 s t ∧ CoreOnly c s t ∧
        groupOf (t.core c) g = { x with state := 0 } ∧ (t.core c).cells = k.cells)) ∧
      (x.state < 2 → Runs (.grel c) s skipped))

/-- Schedule faults in normal mode (R66, R104, R109, R213, R214): a GOPEN of a CLOSING or CLOSED group, a GREL of a CLOSING one, an
ACCRD of an OPEN or CLOSING one, a VLD, a LOAD's row or a stream word whose lines carry another generation, and a first word at a
row whose bank does not hold the load its STREAM names (BANKFAULT too): SCHEDFAULT is logged and the core stops, with its queues
flushed, nothing in execution, every group FREE and no operation held. In guarded replay the group commands and the VLD wait
(R215).
Where it rests on the model's reading, see log entries 16 and 88. -/
def Obligations.ScheduleFaults : Prop :=
  ∀ (c : CoreId) (e : QEntry) (w : SWord) (j : StreamJob) (row : Fin 32) (x : LoadJob) (rest : List LoadJob) (s : State),
    let k := s.core c
    let st := (groupOf k (cmdBits e.word 33 32)).state
    let f := vcmdOf e.word
    let stops := fun (t : State) =>
      Logged (coreP c 1) 0 s t ∧ (∀ q, queueOf (t.core c) q = []) ∧ (t.core c).queues.flights = [] ∧
      (t.core c).array.loads = [] ∧ (t.core c).array.streams = [] ∧ (t.core c).array.words = [] ∧ (t.core c).vec.running = [] ∧
      (∀ h, h < 4 → (groupOf (t.core c) h).state = 0) ∧ (t.core c).ctl.running = false ∧
      (t.core c).sched.task.map (fun y => (y.halt, y.held, y.parts)) = some (.fault, [], []) ∧
      t.mem = s.mem ∧ t.objs = s.objs ∧ t.cal = s.cal ∧ CoresKept c s t
    let faults := fun (i : Instr) => (k.guarded = false → Runs i s stops) ∧ (k.guarded = true → Runs i s (fun t => t = s))
    (Stands c .matrix e s →
      (cmdOp e.word = 3 → gopenReady s c e = true → cmdBits e.word 35 34 ≠ 3 → st = 2 ∨ st = 3 → faults (.gopen c)) ∧
      (cmdOp e.word = 5 → st = 2 → faults (.grel c))) ∧
    (VecTakes c 0x43 e s → vecReady s c e = true → (groupOf k f.g).state = 1 ∨ (groupOf k f.g).state = 2 → faults (.vAccrd c)) ∧
    (VecTakes c 0x80 e s → vldTagsOk s c e f = false → faults (.vVld c)) ∧
    (k.live = true → k.guarded = false → k.array.loads = x :: rest → x.rows ≤ row.val → rowHeld k.array x x.rows = false →
      linesOk k x.tileReg x.tag ((insideSpots (tregOf x.treg) (loadSpots x x.rows)).map
        (fun y => (tregOf x.treg).lineOf y.2.2.1 y.2.2.2)) = false →
      Runs (.loadComplete c row) s stops) ∧
    (k.live = true → k.guarded = false → k.array.words.find? (fun y => decide (y.row = row.val)) = some w → w.job = some j →
      (row.val = 0 → w.tagOk = false → Runs (.streamWordRow c 0) s stops) ∧
      ((row.val = 0 → w.tagOk = true ∧ w.bad = none) → w.pos = 0 → row.val = 0 ∨ 8 * row.val < j.m →
        (let held := mget 0 (bankOf k.array j.bank).rowSeq row.val
         held = 0 ∨ ∃ n, j.flip = some n ∧ held ≠ n) →
        Runs (.streamWordRow c (row.castSucc)) s (fun t => Logged (coreP c 3) 1 s t ∧ stops t)))

/-! ### The vector engine -/

/-- Elementwise FP operations (R134, R135, R136, R138): every element of the destination registers is the operation on the
elements of its place, rounded once by the format of the layout; a scalar operand stands for every element.
Where it rests on the model's reading (EXP2 and LOG2), see log entry 80.
Elementwise integer operations (R137, R138), on words of 32 bits: sums, differences and products modulo 2^32, shifts by the
low 5 bits of the second operand, signed comparisons. -/
def Obligations.VectorResults : Prop :=
  (∀ (c : CoreId) (e : QEntry) (s : State),
     let f := vcmdOf e.word
     let k := s.core c
     let fb := layFb f.lay
     let sc := if f.lay = 2 then f.scalar % 65536 else f.scalar
     let x := fun i => (velems k f.va f.c f.lay).getD i 0
     let y := fun i => if f.ssel then sc else (velems k f.vb f.c f.lay).getD i 0
     let z := fun i => (velems k f.vc f.c f.lay).getD i 0
     let lanes := f.c * (if f.lay = 2 then 4096 else 2048)
     let gives := fun (g : Nat → Nat → Nat → Nat) (t : State) =>
       (∀ i, i < lanes → (velems (t.core c) f.vd f.c f.lay).getD i 0 = g (x i) (y i) (z i)) ∧
       VecDone c e none s t ∧ VregsKept c f.vd f.c s t ∧ DrawsKept c s t ∧ CoreOnly c s t
     (VecTakes c 0x01 e s → Runs (.vAdd c) s (gives fun a b _ => fadd fb a b)) ∧
     (VecTakes c 0x02 e s → Runs (.vSub c) s (gives fun a b _ => fsub fb a b)) ∧
     (VecTakes c 0x03 e s → Runs (.vMul c) s (gives fun a b _ => fmul fb a b)) ∧
     (VecTakes c 0x04 e s → Runs (.vFma c) s (gives fun a b d => ffma fb a b d)) ∧
     (VecTakes c 0x05 e s → Runs (.vMin c) s (gives fun a b _ => fminmax false fb a b)) ∧
     (VecTakes c 0x06 e s → Runs (.vMax c) s (gives fun a b _ => fminmax true fb a b)) ∧
     (VecTakes c 0x07 e s → Runs (.vAbs c) s (gives fun a _ _ => fabs fb a)) ∧
     (VecTakes c 0x08 e s → Runs (.vNeg c) s (gives fun a _ _ => fneg fb a)) ∧
     (VecTakes c 0x09 e s → Runs (.vDiv c) s (gives fun a b _ => fdiv fb a b)) ∧
     (VecTakes c 0x0A e s → Runs (.vSqrt c) s (gives fun a _ _ => fsqrt fb a)) ∧
     (VecTakes c 0x0B e s → Runs (.vRcp c) s (gives fun a _ _ => fdiv fb (127 * 2 ^ fb) a)) ∧
     (VecTakes c 0x0C e s → Runs (.vRsqrt c) s (gives fun a _ _ => frsqrt fb a)) ∧
     (VecTakes c 0x0D e s → Runs (.vExp2 c) s (gives fun a _ _ => fexp2 fb a)) ∧
     (VecTakes c 0x0E e s → Runs (.vLog2 c) s (gives fun a _ _ => flog2 fb a)) ∧
     (VecTakes c 0x0F e s → Runs (.vCmp c) s (gives fun a b _ => if fcmp f.sub fb a b then 1 else 0)) ∧
     (VecTakes c 0x10 e s → Runs (.vSel c) s (gives fun a b d => if d = 0 then b else a)) ∧
     (VecTakes c 0x11 e s → Runs (.vMovs c) s (gives fun _ _ _ => sc))) ∧
  (∀ (c : CoreId) (e : QEntry) (s : State),
     let f := vcmdOf e.word
     let k := s.core c
     let x := fun i => BitVec.ofNat 32 ((velems k f.va f.c f.lay).getD i 0)
     let y := fun i => BitVec.ofNat 32 (if f.ssel then f.scalar else (velems k f.vb f.c f.lay).getD i 0)
     let gives := fun (g : W32 → W32 → W32) (t : State) =>
       (∀ i, i < 2048 * f.c → (velems (t.core c) f.vd f.c f.lay).getD i 0 = (g (x i) (y i)).toNat) ∧
       VecDone c e none s t ∧ VregsKept c f.vd f.c s t ∧ DrawsKept c s t ∧ CoreOnly c s t
     let holds := fun (a b : W32) =>
       if f.sub = 0 then a = b else if f.sub = 1 then a ≠ b else if f.sub = 2 then a.toInt < b.toInt
       else if f.sub = 3 then a.toInt ≤ b.toInt else if f.sub = 4 then b.toInt < a.toInt else b.toInt ≤ a.toInt
     (VecTakes c 0x20 e s → Runs (.vIadd c) s (gives fun a b => a + b)) ∧
     (VecTakes c 0x21 e s → Runs (.vIsub c) s (gives fun a b => a - b)) ∧
     (VecTakes c 0x22 e s → Runs (.vImul c) s (gives fun a b => a * b)) ∧
     (VecTakes c 0x23 e s → Runs (.vAnd c) s (gives fun a b => a &&& b)) ∧
     (VecTakes c 0x24 e s → Runs (.vOr c) s (gives fun a b => a ||| b)) ∧
     (VecTakes c 0x25 e s → Runs (.vXor c) s (gives fun a b => a ^^^ b)) ∧
     (VecTakes c 0x26 e s → Runs (.vShl c) s (gives fun a b => a <<< (b.toNat % 32))) ∧
     (VecTakes c 0x27 e s → Runs (.vShr c) s (gives fun a b => a >>> (b.toNat % 32))) ∧
     (VecTakes c 0x28 e s → Runs (.vSar c) s (gives fun a b => a.sshiftRight (b.toNat % 32))) ∧
     (VecTakes c 0x29 e s → ∃ t, exec (.vIcmp c) s = .next t ∧
       (∀ i, i < 2048 * f.c →
         (holds (x i) (y i) → (velems (t.core c) f.vd f.c f.lay).getD i 0 = 1) ∧
         (¬holds (x i) (y i) → (velems (t.core c) f.vd f.c f.lay).getD i 0 = 0)) ∧
       VecDone c e none s t ∧ VregsKept c f.vd f.c s t ∧ DrawsKept c s t ∧ CoreOnly c s t) ∧
     (VecTakes c 0x2A e s → Runs (.vImin c) s (gives fun a b => if a.toInt ≤ b.toInt then a else b)) ∧
     (VecTakes c 0x2B e s → Runs (.vImax c) s (gives fun a b => if a.toInt ≤ b.toInt then b else a)))

/-- Row operations (R141 to R147, R154, R155): a reduction gives one value a row in the lanes of its destination, the other lanes
zero; the others give a value a position. Rows are counted. -/
def Obligations.RowResults : Prop :=
  ∀ (c : CoreId) (e : QEntry) (s : State),
    let f := vcmdOf e.word
    let k := s.core c
    let l := rowLen f
    let rest := fun (n : Nat) (t : State) =>
      VecDone c e none s t ∧ VregsKept c f.vd n s t ∧ DrawsKept c s t ∧ CoresKept c s t ∧ t.mem = s.mem ∧
      rawPair t 0 (coreP c 5) 0x118 = min (rawPair s 0 (coreP c 5) 0x118 + rowCount f) (2 ^ 64 - 1)
    let lanes := fun (n : Nat) (h : RowIn → RowOut) (t : State) =>
      (∀ j, j < n → ∀ i, i < 2048 → (vregs (t.core c) (f.vd + j) 1).getD i 0 =
        match (rowsOf k f)[i]? with
        | some r => (h r).ys.getD j 0
        | none => 0) ∧ rest n t
    let places := fun (h : RowIn → RowOut) (t : State) =>
      (∀ i p r, (rowsOf k f)[i]? = some r → p < l → (vregs (t.core c) f.vd f.c).getD (i * l + p) 0 = (h r).ys.getD p 0) ∧
      rest f.c t
    (VecTakes c 0x50 e s → Runs (.vRsum c) s (lanes 1 (rowReduce (fadd 23) 0))) ∧
    (VecTakes c 0x51 e s → Runs (.vRmax c) s (lanes 1 (rowReduce (fminmax true 23) codeNinf))) ∧
    (VecTakes c 0x52 e s → Runs (.vRmin c) s (lanes 1 (rowReduce (fminmax false 23) codePinf))) ∧
    (VecTakes c 0x53 e s → Runs (.vRargmax c) s (lanes 2 rowArgmax)) ∧
    (VecTakes c 0x60 e s → Runs (.vSoftmax c) s (places (rowSoftmax f.n f.scalar))) ∧
    (VecTakes c 0x61 e s → Runs (.vLogsoftmax c) s (places (rowLogsoftmax f.n f.scalar))) ∧
    (VecTakes c 0x62 e s → Runs (.vLayernorm c) s (places (fun r => rowNorm true f.n f.scalar (affineOf k f r) r))) ∧
    (VecTakes c 0x63 e s → Runs (.vRmsnorm c) s (places (fun r => rowNorm false f.n f.scalar (affineOf k f r) r))) ∧
    (VecTakes c 0x64 e s → Runs (.vSample c) s (lanes 2 (sampleRow k f)))

/-- Conversions and draws in registers, and completion (R81 to R83, R138, R150 to R153, R156, R181): a calibrated command delivers
its observation to its slot as it completes, or has it discarded with a log when its step's boundary has begun.
Vector commands that reach tile memory or the accumulators (R41, R79, R81, R138, R139, R148, R149, R196, R197, R306): a load
reads each element of the region into its place; a store writes each element where no later one of the command falls; a
quantisation writes each block's exponent byte and mantissas likewise; no other byte of memory changes. With CAL 1 the exponent
byte is that of the slot in force for the task's step, and the command holds its observation until it completes. -/
def Obligations.VectorMoves : Prop :=
  (∀ (c : CoreId) (e : QEntry) (fl : Flight) (rest : List (Flight × Option (Nat × Option Int × Bool))) (s : State),
     let f := vcmdOf e.word
     let k := s.core c
     let x := fun i => (velems k f.va f.c f.lay).getD i 0
     (VecTakes c 0x40 e s → f.lay = 2 → Runs (.vCvt c) s (fun t =>
       (∀ i, i < 4096 * f.c → (vregs (t.core c) f.vd (2 * f.c)).getD i 0 = fenc 23 (fdec 7 (x i))) ∧
       VecDone c e none s t ∧ VregsKept c f.vd (2 * f.c) s t ∧ DrawsKept c s t ∧ CoreOnly c s t)) ∧
     (VecTakes c 0x40 e s → f.lay = 0 → Runs (.vCvt c) s (fun t =>
       (∀ i, i < 2048 * f.c → (velems (t.core c) f.vd ((f.c + 1) / 2) 2).getD i 0 = fenc 7 (fdec 23 (x i))) ∧
       VecDone c e none s t ∧ VregsKept c f.vd ((f.c + 1) / 2) s t ∧ DrawsKept c s t ∧ CoresKept c s t ∧ t.mem = s.mem ∧
       ((∃ i, i < 2048 * f.c ∧ fovf 7 (fdec 23 (x i)) = true) → Logged (coreP c 5) 2 s t) ∧
       ((∀ i, i < 2048 * f.c → fovf 7 (fdec 23 (x i)) = false) → CoreOnly c s t))) ∧
     (VecTakes c 0x70 e s → Runs (.vRand c) s (fun t =>
       (∀ q, q < 2048 * f.c → (vregs (t.core c) f.vd f.c).getD q 0 =
         randForm f.sub (drawAt (laneKey k.vec.genSeed k.vec.genKey (q % 2048)) (k.vec.genCount + q / 2048))) ∧
       (t.core c).vec.genCount = (k.vec.genCount + f.c) % 2 ^ 64 ∧ (t.core c).vec.genKey = k.vec.genKey ∧
       VecDone c e none s t ∧ VregsKept c f.vd f.c s t ∧ CoreOnly c s t)) ∧
     (VecTakes c 0x71 e s → Runs (.vRkey c) s (fun t =>
       (t.core c).vec.genKey = BitVec.ofNat 64 ((vregs k f.va 1).getD 0 0 + 2 ^ 32 * (vregs k f.va 1).getD 1 0) ∧
       (t.core c).vec.genCount = 0 ∧ (t.core c).vec.regs = k.vec.regs ∧ VecDone c e none s t ∧ CoreOnly c s t)) ∧
     (k.vec.running = (fl, none) :: rest → Runs (.vectorComplete c) s (fun t =>
       (t.core c).vec = { k.vec with running := rest } ∧ Completed c fl 1 s t ∧ CoreOnly c s t ∧
       rawPair t 0 (coreP c 5) 0x108 = min (rawPair s 0 (coreP c 5) 0x108 + 1) (2 ^ 64 - 1))) ∧
     (∀ slot order sat, k.vec.running = (fl, some (slot, order, sat)) :: rest → Option.isSome order = true ∨ sat = true →
       Runs (.vectorComplete c) s (fun t =>
         (t.core c).vec = { k.vec with running := rest } ∧ Completed c fl 1 s t ∧
         (taskStep s c = s.bnd.step → CoreOnly c { s with cal := t.cal } t ∧
           calGet t slot = { calGet s slot with
             obs := { order := maxOrder (calGet s slot).obs.order order, sat := (calGet s slot).obs.sat || sat } } ∧
           (∀ n, n ≠ slot → calGet t n = calGet s n)) ∧
         (taskStep s c ≠ s.bnd.step → t.cal = s.cal ∧ Logged 0x010 3 s t))) ∧
     (∀ slot, k.vec.running = (fl, some (slot, none, false)) :: rest → Runs (.vectorComplete c) s (fun t =>
       (t.core c).vec = { k.vec with running := rest } ∧ Completed c fl 1 s t ∧ CoreOnly c s t))) ∧
  (∀ (c : CoreId) (e : QEntry) (s : State),
     let f := vcmdOf e.word
     let k := s.core c
     let r := treg s c f.tr
     let lo := firstElem f r
     let base := spaceBase c r.space
     let addr := fun i => base + r.elemOff ((lo + i) / r.v) ((lo + i) % r.v)
     let ranges := (List.range (moved f)).map (fun i => (addr i, r.width))
     let stores := fun (bytes : Nat → List Byte) (t : State) =>
       (∀ i, i < moved f → (∀ j, i < j → j < moved f → addr j + r.width ≤ addr i ∨ addr i + r.width ≤ addr j) →
         memGetAll t.mem (addr i) r.width = bytes i) ∧
       (∀ a, Outside a ranges → memGet t.mem a = memGet s.mem a) ∧ (t.core c).vec.regs = k.vec.regs ∧ CoresKept c s t
     let key := fun (b : Nat) => (base + r.mantOff (b / 2 ^ 20) (b % 2 ^ 20), base + r.expOff (b / 2 ^ 20) (b % 2 ^ 20))
     let touched := touchedBlocks r lo (moved f)
     let blockRanges := touched.flatMap (fun b => [((key b).1, 4 * blockBits r.fmt), ((key b).2, 1)])
     let ebyte := if f.cal then calEbyte s f.slot (taskStep s c) else f.ebyte
     let given := if f.exp then some ebyte else none
     let ready := f.cal = true → calOff s f.slot = false ∧
       (f.op = 0x42 ∨ f.exp = true → calInForce s f.slot (taskStep s c) = true)
     let observed := fun (xs : List FVal) (sat : Bool) => if f.cal then some (f.slot, orderOf xs, sat) else none
     let packed := fun (xs : List FVal) (b : Nat) => toBlock (blockBits r.fmt) true given ((List.range 32).map fun i =>
       let p := blockSpot r (b / 2 ^ 20) (b % 2 ^ 20) i
       if p.1 < r.u ∧ p.2 < r.v then xs.getD (p.1 * r.v + p.2 - lo) (.fin false 0 0) else .fin false 0 0)
     let quantises := fun (xs : List FVal) (t : State) =>
       (blockRanges.Pairwise (fun a b => a.1 + a.2 ≤ b.1 ∨ b.1 + b.2 ≤ a.1) → ∀ b ∈ touched,
         memGet t.mem (key b).2 = BitVec.ofNat 8 (packed xs b).e ∧
         memGetAll t.mem (key b).1 (4 * blockBits r.fmt) = packMants (blockBits r.fmt) (packed xs b).ms) ∧
       (∀ a, Outside a blockRanges → memGet t.mem a = memGet s.mem a) ∧ (t.core c).vec.regs = k.vec.regs ∧ CoresKept c s t ∧
       VecDone c e (observed xs (touched.any (fun b => (packed xs b).sat.isSome))) s t
     let values := (vregs k f.va f.c).map (fdec 23)
     let cells := (List.range (2048 * f.c)).map (fun q => cellVal (groupOf k f.g) (cellOf k f.g (f.i0 + q / 256) (q % 256)))
     let clean := firstPoison s [(cellAddr c (cellKey f.g f.i0 0), 16 * (2048 * f.c))] = none
     (VecTakes c 0x80 e s → vldTagsOk s c e f = true →
       firstPoison s ((List.range (moved f)).flatMap (fun i => elemBytes c r ((lo + i) / r.v) ((lo + i) % r.v))) = none →
       Runs (.vVld c) s (fun t =>
         (∀ i, i < moved f → (velems (t.core c) f.vd f.c f.lay).getD i 0 =
           loadElem s c r f.lay ((lo + i) / r.v) ((lo + i) % r.v) % 2 ^ (if f.lay = 2 then 16 else 32)) ∧
         VecDone c e none s t ∧ VregsKept c f.vd f.c s t ∧ DrawsKept c s t ∧ CoreOnly c s t)) ∧
     (VecTakes c 0x81 e s → Runs (.vVst c) s (fun t =>
       stores (fun i => bytesOfNat r.width ((velems k f.va f.c f.lay).getD i 0)) t ∧ VecDone c e none s t)) ∧
     (VecTakes c 0x42 e s → ready → Runs (.vQgrad c) s (fun t =>
       stores (fun i => bytesOfNat r.width (codeOf 16 (gradElem ebyte (fdec 23 ((vregs k f.va f.c).getD i 0))).1)) t ∧
       VecDone c e (observed values (values.any (fun x => (gradElem ebyte x).2))) s t)) ∧
     (VecTakes c 0x41 e s → ready → Runs (.vQuant c) s (quantises values)) ∧
     (VecTakes c 0x43 e s → (groupOf k f.g).state = 3 → f.dest = 2 → ready → clean → Runs (.vAccrd c) s (fun t =>
       quantises cells t ∧ (t.core c).cells = k.cells ∧ (t.core c).groups = k.groups ∧
       rawPair t 0 (coreP c 5) 0x110 = min (rawPair s 0 (coreP c 5) 0x110 + 8 * f.c) (2 ^ 64 - 1))) ∧
     (VecTakes c 0x43 e s → (groupOf k f.g).state = 3 → f.dest < 2 → clean → Runs (.vAccrd c) s (fun t =>
       (∀ q, q < 2048 * f.c →
         let cell := cellOf k f.g (f.i0 + q / 256) (q % 256)
         (vregs (t.core c) f.vd f.c).getD q 0 = if f.dest = 1 then cell.indexRead (groupOf k f.g).mode
           else fenc 23 (cellVal (groupOf k f.g) cell)) ∧
       (t.core c).cells = k.cells ∧ (t.core c).groups = k.groups ∧ VecDone c e none s t ∧ VregsKept c f.vd f.c s t ∧
       CoresKept c s t ∧ t.mem = s.mem ∧
       rawPair t 0 (coreP c 5) 0x110 = min (rawPair s 0 (coreP c 5) 0x110 + 8 * f.c) (2 ^ 64 - 1))))

/-- What the vector engine skips (R66, R71, R78, R157, R197, R201 checks 8 to 16): a command that fails a check is taken and logged
with OPSKIP and its cause, an ACCRD of a FREE group with SKIP, a calibrated command of an OFF slot with CALOFF; nothing else of the
core changes. The causes follow the order of the checks. -/
def Obligations.VectorSkips : Prop :=
  ∀ (c : CoreId) (e : QEntry) (s : State),
    let f := vcmdOf e.word
    let r := treg s c f.tr
    let cause := vecCause s c f
    let skipped := fun (page flag capture : Nat) (t : State) =>
      Popped c .vector s t ∧ Logged page flag s t ∧ CoreEvent c s t ∧ t.core c = popQueue .vector (s.core c) ∧
      (bitOf (rawWord s 0 page 0x00C) 0 = false → rawWord t 0 page 0x040 = capture)
    let commands : List (Nat × Instr) :=
      [(0x01, .vAdd c), (0x02, .vSub c), (0x03, .vMul c), (0x04, .vFma c), (0x05, .vMin c), (0x06, .vMax c), (0x07, .vAbs c),
       (0x08, .vNeg c), (0x09, .vDiv c), (0x0A, .vSqrt c), (0x0B, .vRcp c), (0x0C, .vRsqrt c), (0x0D, .vExp2 c),
       (0x0E, .vLog2 c), (0x0F, .vCmp c), (0x10, .vSel c), (0x11, .vMovs c)] ++
      [(0x20, .vIadd c), (0x21, .vIsub c), (0x22, .vImul c), (0x23, .vAnd c), (0x24, .vOr c), (0x25, .vXor c), (0x26, .vShl c),
       (0x27, .vShr c), (0x28, .vSar c), (0x29, .vIcmp c), (0x2A, .vImin c), (0x2B, .vImax c)] ++
      [(0x40, .vCvt c), (0x41, .vQuant c), (0x42, .vQgrad c), (0x43, .vAccrd c), (0x50, .vRsum c), (0x51, .vRmax c),
       (0x52, .vRmin c), (0x53, .vRargmax c), (0x60, .vSoftmax c), (0x61, .vLogsoftmax c), (0x62, .vLayernorm c),
       (0x63, .vRmsnorm c), (0x64, .vSample c), (0x70, .vRand c), (0x71, .vRkey c), (0x80, .vVld c), (0x81, .vVst c)]
    let x := fdec 23 f.scalar
    (∀ i ∈ commands, Stands c .vector e s → cmdOp e.word = i.1 → vecReady s c e = true → cause ≠ 0 →
      Runs i.2 s (skipped (coreP c 5) 5 ((e.idx + cause * 2 ^ 8) % 2 ^ 32))) ∧
    (VecTakes c 0x43 e s → vecReady s c e = true → (groupOf (s.core c) f.g).state = 0 →
      Runs (.vAccrd c) s (skipped (coreP c 4) 4 (e.idx % 2 ^ 32))) ∧
    (f.cal = true → calOff s f.slot = true →
      let off := skipped 0x010 4 (f.slot + taskStep s c % 65536 * 2 ^ 16)
      (VecTakes c 0x41 e s → Runs (.vQuant c) s off) ∧ (VecTakes c 0x42 e s → Runs (.vQgrad c) s off) ∧
      (VecTakes c 0x43 e s → (groupOf (s.core c) f.g).state = 3 → f.dest = 2 → Runs (.vAccrd c) s off)) ∧
    (vecOpOk f = false → cause = 1) ∧
    (vecOpOk f = true →
      (isElem f.op = true ∨ isRow f.op = true → f.c = 0 ∨ 32 < f.c ∨ 64 < f.vd + f.c ∧ isElem f.op = true ∨ 64 < f.va + f.c ∧ f.op ≠ 0x11 →
        cause = 2) ∧
      (vecRegsOk f = true →
        (f.op = 0x43 → 256 < f.i0 + 8 * f.c → cause = 3) ∧
        (isRow f.op = true → rowLen f < f.n → cause = 3) ∧
        (vecGeomOk f = true →
          (f.op = 0x60 ∨ f.op = 0x61 → x.isFin = false ∨ x.neg = true ∨ x.isZero = true → cause = 4) ∧
          (f.op = 0x62 ∨ f.op = 0x63 → x.isFin = false ∨ x.neg = true → cause = 4) ∧
          (vecScalarOk f = true →
            (isMem f = true → r.fits = false ∨ r.space ≠ 0 ∨ r.u * r.v < firstElem f r + moved f → cause = 5) ∧
            (vecRegionOk f r = true → f.op = 0x42 → r.fmt ≠ 8 → cause = 6) ∧
            (vecRegionOk f r = true → f.op = 0x81 → r.fmt ≠ (if f.lay = 0 then 5 else if f.lay = 1 then 9 else 4) → cause = 6) ∧
            (vecRegionOk f r = true → vecFormatOk f r = true → f.op = 0x43 →
              f.dest = 3 ∨ (f.dest = 1 ∧ (groupOf (s.core c) f.g).state ≠ 0 ∧ (groupOf (s.core c) f.g).mode = 0) → cause = 7)))))

/-! ### DMA -/

/-- XFER, activation, detached start and abort (R199, R263, R267, R269, R275, R276, R279): a descriptor that passes its checks is
loaded into the shadow set of its channel with nothing moved; one that fails them is rejected with DREJECT; a start or abort
that may not act logs DMASKIP; an abort of rows that have gone to another module ends at the row boundary. Starts and aborts are
those of a requester that reaches Meridian (R20).
Where it rests on the model's reading, see log entry 48. -/
def Obligations.DescriptorEffects : Prop :=
  ∀ (c : CoreId) (e : QEntry) (ch : ChanId) (r : Req) (k : Fin 8) (x y : Xfer) (s : State),
    let n := xferChan c e
    let desc := readDesc s (xferDescAt c e)
    let d := descOf desc
    let cause := rejectCause s d false (treg s c d.source.treg) (treg s c d.dest.treg)
    let w := wideChan k
    let staged := stagedDesc s k
    let detached := rejectCause s (descOf staged) true (tregOf []) (tregOf [])
    let mayGo := mayStart s r (fieldOf s 0 0x014 (dmaOff w 0x6C) 13 0) = true ∧ (s.chan w).shadow = none ∧
      allCores.any (xferWaits s w) = false
    let loaded := fun (h : ChanId) (desc : List Nat) (t : State) (z : Xfer) =>
      (t.chan h).shadow = some z ∧ z.desc = desc ∧ z.issued = 0 ∧ z.written = 0 ∧ z.rowsIn = [] ∧
      z.serial = (s.chan h).loaded ∧ (t.chan h).loaded = (s.chan h).loaded + 1 ∧ (t.chan h).active = (s.chan h).active
    (Stands c .dma e s → cmdOp e.word = 1 → (s.chan n).shadow = none → (∀ q : CoreId, q.val < c.val → xferWaits s n q = false) →
      firstPoison s [(xferDescAt c e, 64)] = none →
      (cause = none → Runs (.xfer c) s (fun t =>
        (∃ z, loaded n desc t z ∧ z.owner = some (c.val, flightOf .dma e)) ∧ Popped c .dma s t ∧
        Began c (flightOf .dma e) s t ∧ ChansKept n s t ∧ CoresKept c s t ∧
        t = { s with cores := t.cores, chans := t.chans, regs := t.regs })) ∧
      (∀ b, cause = some b → Runs (.xfer c) s (fun t =>
        Popped c .dma s t ∧ Logged (dmaPage n) 0 s t ∧ t.chans = s.chans ∧ CoreEvent c s t ∧
        t.core c = popQueue .dma (s.core c)))) ∧
    ((s.chan ch).active = none → (s.chan ch).shadow = some x →
      (xferRows x.desc ≠ 0 → Runs (.descriptorActivate ch) s (fun t =>
        t.chan ch = { s.chan ch with active := some x, shadow := none } ∧ ChansKept ch s t ∧ t = { s with chans := t.chans })) ∧
      (∀ q fl, xferRows x.desc = 0 → x.owner = some (q, fl) → Runs (.descriptorActivate ch) s (fun t =>
        (t.chan ch).active = none ∧ (t.chan ch).shadow = none ∧ Completed (Fin.ofNat 4 q) fl 0 s t ∧ ChansKept ch s t ∧
        t.mem = s.mem))) ∧
    (reaches r s = true →
      (mayGo → detached = none → Runs (.detachedStart r k false) s (fun t =>
        (∃ z, loaded w staged t z ∧ z.owner = none ∧ z.starter = some r) ∧ ChansKept w s t ∧ t = { s with chans := t.chans })) ∧
      (mayGo → ∀ b, detached = some b → Runs (.detachedStart r k false) s (fun t =>
        (t.chan w).lastOutcome = 3 ∧ (t.chan w).shadow = none ∧ Logged (dmaPage w) 0 s t ∧ ChansKept w s t ∧ t.mem = s.mem)) ∧
      (¬mayGo → Runs (.detachedStart r k false) s (fun t => t.chans = s.chans ∧ Logged (dmaPage w) 4 s t ∧ t.mem = s.mem)) ∧
      (∀ u, exec (.detachedAbort r k) s = .next u → exec (.detachedStart r k true) s = exec (.detachedStart r k false) u) ∧
      ((s.chan w).active = some y → y.owner = none →
        (remoteDst s y = false ∨ (y.written = 0 ∧ y.wpart = 0) → Runs (.detachedAbort r k) s (fun t =>
          (t.chan w).active = none ∧ (t.chan w).lastOutcome = 2 ∧ ChansKept w s t ∧ t.mem = s.mem ∧ t.cores = s.cores ∧
          (∀ o, objGet t o = objGet s o +
            (if bitOf (y.desc.getD 0 0) 17 ∧ o = fieldOf s 0 0x014 (0x160 + 0x80 * k.val) 16 0 then BitVec.ofNat 64 y.unreported
             else 0)))) ∧
        (remoteDst s y = true → 0 < y.written ∨ 0 < y.wpart → Runs (.detachedAbort r k) s (fun t =>
          (t.chan w).active = some { y with stop := 1 } ∧ ChansKept w s t ∧ t = { s with chans := t.chans }))) ∧
      ((s.chan w).active = none → (s.chan w).shadow = none → Runs (.detachedAbort r k) s (fun t =>
        t.chans = s.chans ∧ Logged (dmaPage w) 4 s t ∧ t.mem = s.mem ∧ t.objs = s.objs)))

/-- The rows of a transfer (R254, R263, R265, R270, R271, R273): a row is read whole at its issue and written whole; the bytes
outside the row do not change; one that breaks the rule of word accesses through a window of words is discarded and logged (R11,
R158). A transfer that resumes keeps its row's place among the accesses that wait (R241).
Where it rests on the model's reading, see log entries 23, 37, 48, 97 and 100. -/
def Obligations.RowMovement : Prop :=
  ∀ (ch : ChanId) (x : Xfer) (s : State),
    let d := descOf x.desc
    let k := s.chan ch
    let held := fun (t : State) (P : Xfer → Prop) =>
      ∃ y, ((t.chan ch).active = some y ∨ (t.chan ch).shadow = some y) ∧ y.serial = x.serial ∧ P y
    let alone := k.resumed = none ∨ ((∀ w ∈ s.mig.waiters, w.what = .chan ch.val) ∧ ∀ p, (s.host p).windowQ = [])
    (issuer k = some x → alone → (d.pace = true → x.counted ≤ x.issued → paceGo s ch x = true) → settleRow x x.issued s = s →
      unreadyTiles s x x.issued = [] → waitersBefore s (.chan ch.val) (rowTiles s x x.issued) = false →
      rowAsleep s x false x.issued = none → x.srcTag = none → remoteSrc s x = false → Runs (.dmaRowIssue ch) s (fun t =>
        held t (fun y => y.issued = x.issued + 1 ∧ y.written = x.written ∧
          mfind y.rowsIn x.issued = some (readRow s x x.issued)) ∧
        ChansKept ch s t ∧ t.mem = s.mem ∧ t.cores = s.cores ∧ t.objs = s.objs)) ∧
    (issuer k = some x → alone → d.pace = true → x.counted ≤ x.issued → paceGo s ch x = false → Runs (.dmaRowIssue ch) s (fun t =>
      held t (fun y => y.issued = x.issued ∧ y.filling = false) ∧ ChansKept ch s t ∧ t = { s with chans := t.chans })) ∧
    (writer s ch = some x → alone → x.stop ≠ 2 → settleRow x x.written s = s → unreadyTiles s x x.written = [] →
      waitersBefore s (.chan ch.val) (rowTiles s x x.written) = false → rowAsleep s x true x.written = none → d.kind = .copy → d.dest.tr = false →
      d.dest.module = moduleId s → (∃ q, winIn s d.dest.local = .tile q ∨ winIn s d.dest.local = .dmem q) →
      0xE0000000000 ≤ d.rowAddr d.dest x.written → remoteDst s x = false →
      let a := d.rowAddr d.dest x.written
      let bs := mget [] x.rowsIn x.written
      let whole := rowAligned (winIn s d.dest.local) a bs.length = true
      Runs (.dmaRowWrite ch) s (fun t =>
        (whole → ∀ i, i < bs.length → memGet t.mem (a + i) = ((bs.getD i (0, false)).1)) ∧
        (whole → ∀ b, b < a ∨ a + bs.length ≤ b → memGet t.mem b = memGet s.mem b) ∧
        (¬whole → t.mem = s.mem ∧ Logged 0 0 s t) ∧
        held t (fun y => y.written = x.written + 1 ∧ mfind y.rowsIn x.written = none) ∧ ChansKept ch s t)) ∧
    (∀ row, k.suspended = some (x.serial, row) → k.active = some x → settleRow x row s = s → unreadyTiles s x row = [] →
      firstWaits s (.chan ch.val) = true → Runs (.transferResume ch) s (fun t =>
        t.chan ch = { k with suspended := none, resumed := some (x.serial, row) } ∧ ChansKept ch s t ∧
        t = { s with chans := t.chans })) ∧
    (∀ y q, k.active = some x → k.late = q :: y → s.txn.deferred = [] →
      Runs (.latedrop ch) s (fun t =>
        (t.chan ch).late = kdel k.late q ∧ (t.chan ch).active = some x ∧ Logged (dmaPage ch) 5 s t ∧ ChansKept ch s t ∧
        t.mem = s.mem)) ∧
    (k.active = some x → x.stop ≠ 1 → xferRows x.desc ≤ x.landed → backIn s x = true → Runs (.xferComplete ch) s (fun t =>
      (t.chan ch).active = none ∧ (t.chan ch).shadow = k.shadow ∧ ChansKept ch s t ∧ t.mem = s.mem ∧ t.regs = s.regs ∧
      (∀ q fl, x.owner = some (q, fl) → Completed (Fin.ofNat 4 q) fl (xferRows x.desc) s t ∧ t.objs = s.objs) ∧
      (x.owner = none → (t.chan ch).lastOutcome = 1 ∧ t.cores = s.cores ∧ ∀ o, objGet t o = objGet s o +
        (if d.prog = true ∧ o = fieldOf s 0 (dmaPage ch) (dmaOff ch 0x60) 16 0 then BitVec.ofNat 64 x.unreported else 0)))) ∧
    (k.active = some x → x.stop = 1 → x.wpart = 0 → x.written ≤ x.landed → backIn s x = true → Runs (.xferComplete ch) s (fun t =>
      (t.chan ch).active = none ∧ (t.chan ch).lastOutcome = 2 ∧ ChansKept ch s t ∧ t.mem = s.mem ∧ t.cores = s.cores)) ∧
    (k.active = some x → x.owner = none → d.prog = true → x.stop = 0 → 0 < x.step → x.step ≤ x.unreported →
      remoteDst s x = false → Runs (.progressAdd ch) s (fun t =>
        (∀ o, objGet t o = objGet s o +
          (if o = fieldOf s 0 (dmaPage ch) (dmaOff ch 0x60) 16 0 then BitVec.ofNat 64 x.step else 0)) ∧
        (∃ b, (t.chan ch).active = some { x with unreported := x.unreported - x.step, back := b }) ∧ ChansKept ch s t ∧
        t.mem = s.mem ∧ t.cores = s.cores))

/-! ### Gradient reduction -/

/-- CONTRIB and RETRACT (R200, R201 checks 17 and 18, R308, R309, R404, R408): a part of the elements read, zeros above them, is held
to the commit under the current epoch, which advances, and takes send-buffer space; the command completes; a command that
fails is skipped with RSKIP or refused with RREFUSE.
Where it rests on the model's reading, see log entries 24, 45 and 93. -/
def Obligations.ReduceCommands : Prop :=
  ∀ (c : CoreId) (retract : Bool) (e : QEntry) (k : Task) (s : State),
    let i := if retract then Instr.retract c else .contrib c
    let f := rcmdOf e.word
    let r := treg s c f.tr
    let spots := (List.range f.elems).map (fun q => (f.row0 + q / r.v, q % r.v))
    let es := spots.map (fun p => signedOf 16 (plainElem s c r p.1 p.2))
    let n := rawWord s 0 relPage 0x100
    Stands c .reduce e s → cmdOp e.word = (if retract then 2 else 1) → redReady s c retract e = true →
    redWaits s c retract e = false → (s.core c).sched.task = some k →
      (rskipCause r f = 0 → refuseCause s c retract f = 0 → partsDigestOnly s c = false → redTagsOk s c e = true →
        firstPoison s (spots.flatMap (fun p => elemBytes c r p.1 p.2)) = none → Runs i s (fun t =>
          (∃ q, (t.core c).sched.task.map (·.parts) = some (k.parts ++ [q]) ∧ q.bucket = f.bucket ∧ q.retract = retract ∧
            q.epoch = n ∧ q.elems = es ++ List.replicate (bkLen s f.bucket - f.elems) 0) ∧
          rawWord t 0 relPage 0x100 = (if n = 2 ^ 32 - 1 then 1 else (n + 1) % 2 ^ 32) ∧
          mget 0 t.red.used f.chan = mget 0 s.red.used f.chan + partSpace s f.bucket ∧ t.red.members = s.red.members ∧
          Popped c .reduce s t ∧ (t.core c).queues.flights = (s.core c).queues.flights.erase (flightOf .reduce e) ∧
          CoresKept c s t ∧ t.mem = s.mem)) ∧
      (rskipCause r f ≠ 0 → Runs i s (fun t =>
        Logged (coreP c 2) 1 s t ∧ Popped c .reduce s t ∧ t.core c = popQueue .reduce (s.core c) ∧ t.red = s.red ∧
        CoreEvent c s t)) ∧
      (rskipCause r f = 0 → refuseCause s c retract f ≠ 0 → Runs i s (fun t =>
        Logged redPage 0 s t ∧ Popped c .reduce s t ∧ t.core c = popQueue .reduce (s.core c) ∧ t.red = s.red ∧ CoreEvent c s t))

/-- The member's side (R309 to R312, R320, R90, R91): a complete CONTRIB or NOTICE leaves and the CONTRIB is retained; the member
deadline closes the member, with a NOTICE for a contribution that is not complete, whose parts are discarded, and a slot without
its AGREE falls back; a clear epoch sends CLEAR and the retained elements go; AGREE
puts the agreed values in force; RECEXCL ends the member's part.
Where it rests on the model's reading, see log entries 44, 45 and 46. -/
def Obligations.MemberEffects : Prop :=
  ∀ (ch : BitVec 6) (b : BitVec 12) (m : Msg) (r : RedMsg) (step d : Nat) (x : Member) (s : State),
    let after := fun (t : State) (b step : Nat) (y : Member) => memberOf t b step = some y
    let n := bkSlot s r.bucket
    let mine := fun (p : Part) => p.bucket == b.toNat && p.step == step && !p.retract
    let kept := fun (t : State) => t.mem = s.mem ∧ t.red.records = s.red.records ∧ t.objs = s.objs
    let rest := fun (t : State) => kept t ∧ t.cores = s.cores
    let settled := settleBucket r.bucket (arrived m s) = arrived m s
    (firstSend (waitingSends s ch.toNat) = some (step, b.toNat) → memberOf s b.toNat step = some x →
      lowerSent s ch.toNat b.toNat step = true → Runs (.contribSend ch) s (fun t =>
        rest t ∧ rawPair t 0 redPage 0x180 = min (rawPair s 0 redPage 0x180 + 1) (2 ^ 64 - 1) ∧
        Sent s t (fun o => o.dest = bkHome s b.toNat ∧ ∃ q, redBody o = some q ∧ q.step = step ∧ q.bucket = b.toNat ∧
          q.epoch = x.epoch ∧ (x.ready = 4 → q.type = 1 ∧ q.count = 1 ∧ q.elems = x.staging) ∧
          (x.ready ≠ 4 → q.type = 3 ∧ q.cause = x.ready)) ∧
        (x.ready = 4 → x.ended = false → after t b.toNat step { x with sent := true, retained := some x.staging, staging := [] }) ∧
        (x.ready = 4 → x.ended = true → after t b.toNat step
          { x with sent := true, retained := none, clearSent := true, staging := [], space := 0 }) ∧
        (x.ready ≠ 4 → after t b.toNat step { x with sent := true, ended := true, staging := [], space := 0 }))) ∧
    (memberOf s b.toNat step = some x → x.deadline = some d → nextMember s b.toNat = some x →
      (pageEn s bndPage = false ∨ (memberOf s b.toNat s.bnd.step).isSome = true ∨ bkMember s b.toNat = false) →
      let slot := bkSlot s b.toNat
      let y := calGet s slot
      let shut := fun (t : State) => kept t ∧ t.now = max s.now (d + 1) ∧ t.ick = s.ick
      (y.cfg.mode ≠ 2 → Runs (.memberDeadline b) s (fun t => shut t ∧ t.cal = s.cal ∧
        (x.ready ≠ 0 ∨ x.sent = true → t.cores = s.cores ∧
          after t b.toNat step { x with deadline := none, closed := true }) ∧
        (x.ready = 0 → x.sent = false → Logged redPage 2 s t ∧
          (∀ c, (t.core c).sched.task.map (·.parts) = (s.core c).sched.task.map (fun k => k.parts.filter (fun p => !mine p))) ∧
          after t b.toNat step
            { x with deadline := none, closed := true, ready := 1, checks := [], staging := [], space := 0 }))) ∧
      (y.cfg.mode = 2 → y.due = false → y.pendAgree = true → y.forStep = some step → Runs (.memberDeadline b) s (fun t => shut t ∧
        (calGet t slot).pendAgree = false ∧ (calGet t slot).fellBack = true ∧ (calGet t slot).tmax = y.tmax ∧
        Logged calPage 6 s t))) ∧
    (memberOf s b.toNat step = some x → x.retained.isSome = true → x.clearSent = false → epochClear s x.epoch = true →
      (∀ y, mfind s.red.members (parKey b.toNat (step + 1)) = some y → y.retained = none) → Runs (.clearSend b) s (fun t =>
        rest t ∧ after t b.toNat step { x with clearSent := true, ended := true, retained := none, staging := [], space := 0 } ∧
        Sent s t (fun o => o.dest = bkHome s b.toNat ∧ ∃ q, redBody o = some q ∧ q.type = 6 ∧ q.step = step ∧
          q.epoch = x.epoch))) ∧
    (Arrives m 2 s → redBody m = some r → redMsgOk s r = true →
      (r.type = 7 → memberOf s r.bucket r.step = some x → Runs (.recexclMsg m) s (fun t =>
        rest t ∧ t.txn = (arrived m s).txn ∧ after t r.bucket r.step (if x.retained = none then { x with ended := true }
          else { x with ended := true, retained := none, clearSent := true, staging := [], space := 0 }))) ∧
      (r.type = 5 → settled → (calGet s n).due = false → (calGet s n).forStep = some r.step →
        (calGet s n).pendAgree = true → (∀ y, memberOf s r.bucket r.step = some y → y.closed = false) →
        Runs (.agreeMsg m) s (fun t =>
          let v := scaleOf (calGet s n).cfg r.tmax
          t.mem = s.mem ∧ t.cores = s.cores ∧ t.red = s.red ∧ (calGet t n).pendAgree = false ∧ (calGet t n).tmax = r.tmax ∧
          (calGet t n).anchor = v.1 ∧ (calGet t n).ebyte = v.2.1 ∧ (calGet t n).ring = (calGet s n).ring ∧
          (∀ q, q ≠ n → calGet t q = calGet s q))) ∧
      (r.type = 5 → settled → (calGet s n).forStep ≠ some r.step → r.step = (s.bnd.step + 1) % 2 ^ 64 ∨ (r.step = s.bnd.step ∧
          ((calGet s n).due = true ∨ pageEn s bndPage = false) ∧ ∀ y, memberOf s r.bucket r.step = some y → y.closed = false) → Runs (.agreeMsg m) s (fun t =>
        calGet t n = { calGet s n with kept := mset (calGet s n).kept r.step r.tmax } ∧ t.red = s.red ∧ t.mem = s.mem)))

/-- The home's records (R316 to R322): CONTRIB adds its elements and includes its modules, or is excluded for another scale;
NOTICE excludes its sender; RETRACT replaces wrong elements by right ones; CLEAR clears; a message for a collected record is
late; deadlines exclude the members not accounted, and a record not cleared in time is excluded whole.
Where it rests on the model's reading, see log entry 44.
Combining (R314, R317): at the home, two CONTRIBs of one step, bucket and scale that a router has combined leave the records
as the two arriving one after the other would. Neither completes the record by the first of them, and no module of theirs is
accounted; their elements and the record's sum are as long as the bucket. -/
def Obligations.HomeEffects : Prop :=
  (∀ (m : Msg) (r : RedMsg) (rec : Record) (b : BitVec 12) (odd : Bool) (s : State),
     let key := fun (odd : Bool) => b.toNat * 2 + if odd then 1 else 0
     let who := redMembers r
     let settled := settleBucket r.bucket (arrived m s) = arrived m s
     let full := fun (rec : Record) => decide (bkMembers s r.bucket ≤ rec.included.length + rec.excluded.length)
     let now := fun (t : State) (P : Record → Prop) => ∃ y, recordOf t r.bucket r.step = some y ∧ y.step = rec.step ∧ P y
     let open' := fun (y : Record) (z : Record) => (full z = false → y.state = 1) ∧ (full z = true → y.state = 2 ∨ y.state = 3)
     (Arrives m 2 s → redBody m = some r → redMsgOk s r = true → settled → recordBusy s r = false →
       s.red.waiting.any (sameChannel m) = false → recordOf s r.bucket r.step = some rec →
       (rec.past = true → rec.delivered = true → rec.step ≠ s.bnd.step) →
       (r.type = 1 → rec.state = 1 → who.any rec.accounted = false →
         referenceOf s r.bucket r.step = some r.scale → Runs (.contribMsg m) s (fun t => now t (fun y =>
           let z := { rec with sum := addElems rec.sum (r.elems.take (bkLen s r.bucket)),
                               included := who.foldl kins rec.included }
           y.sum = z.sum ∧ y.included = z.included ∧ y.excluded = rec.excluded ∧ y.cleared = rec.cleared ∧ open' y z))) ∧
       (r.type = 1 → rec.state = 1 → who.any rec.accounted = false → r.map = none →
         referenceOf s r.bucket r.step ≠ some r.scale → Runs (.contribMsg m) s (fun t => now t (fun y =>
           let z := { rec with excluded := rec.excluded ++ [(r.src, 4)] }
           y.sum = rec.sum ∧ y.included = rec.included ∧ y.excluded = z.excluded ∧ open' y z) ∧ Logged redPage 1 s t ∧
           rawPair t 0 redPage 0x190 = min (rawPair s 0 redPage 0x190 + 1) (2 ^ 64 - 1))) ∧
       (r.type = 1 → rec.state ≠ 1 → Runs (.contribMsg m) s (fun t =>
         now t (fun y => y = { rec with late := rec.late + who.length }) ∧ (r.map = none → Logged redPage 2 s t))) ∧
       (r.type = 3 → rec.state = 1 → rec.accounted r.src = false → Runs (.noticeMsg m) s (fun t => now t (fun y =>
         let z := { rec with excluded := rec.excluded ++ [(r.src, r.cause)] }
         y.sum = rec.sum ∧ y.included = rec.included ∧ y.excluded = z.excluded ∧ open' y z) ∧ Logged redPage 1 s t)) ∧
       (r.type = 2 → rec.state ≤ 3 → rec.delivered = false → rec.included.contains r.src = true →
         Runs (.retractMsg m) s (fun t => now t (fun y =>
           let k := bkLen s r.bucket
           y.sum = addElems (addElems rec.sum ((r.wrong.take k).map (fun e => -e))) (r.elems.take k) ∧
           y.included = rec.included ∧ y.cleared = kdel rec.cleared r.src ∧ y.retractions = rec.retractions + 1 ∧
           y.state = (if rec.state = 3 then 2 else rec.state)))) ∧
       (r.type = 6 → rec.included.contains r.src = true → Runs (.clearMsg m) s (fun t => now t (fun y =>
         y.cleared = kins rec.cleared r.src ∧ y.sum = rec.sum ∧ y.included = rec.included ∧
         y.state = (if rec.state = 2 ∧ rec.included.all (fun q => (kins rec.cleared r.src).contains q) then 3
           else rec.state))))) ∧
     (Arrives m 2 s → redBody m = some r → redMsgOk s r = true → r.type = 4 → settled → 1 < bkMembers s r.bucket →
       agreementOf s r.bucket r.step = none → Runs (.proposeMsg m) s (fun t =>
         (∃ a, agreementOf t r.bucket r.step = some a ∧ a.step = r.step ∧ a.proposals = [(r.src, r.tmax)] ∧
           a.sent = none ∧ a.firstAt = s.now) ∧ t.red.records = s.red.records ∧ t.mem = s.mem ∧ t.cores = s.cores)) ∧
     (∀ a, (waitingAgreements s b.toNat).find? (fun a => a.step % 2 == if odd then 1 else 0) = some a →
       Runs (.agreeTimeout b odd) s (fun t =>
         (∃ y, agreementOf t b.toNat a.step = some y ∧ y.proposals = a.proposals ∧
           y.sent = some (a.proposals.foldl (fun q p => max q p.2) (-1024)) ∧
           (y.partialAg = true ↔ a.proposals.length < bkMembers s b.toNat)) ∧
         t.ick.outbox.length = s.ick.outbox.length + (memberMap s b.toNat).length ∧
         t.now = max s.now (a.firstAt + homeWait s b.toNat) ∧ t.mem = s.mem ∧ t.red.records = s.red.records)) ∧
     (mfind s.red.records (key odd) = some rec → rec.step % 2 = (if odd then 1 else 0) → rec.state = 1 →
       Runs (.homeDeadline b odd) s (fun t => t.now = max s.now rec.deadline ∧ ∃ y, mfind t.red.records (key odd) = some y ∧
         (y.state = 2 ∨ y.state = 3) ∧ y.collectedAt = rec.deadline ∧ y.sum = rec.sum ∧ y.included = rec.included ∧
         y.excluded = rec.excluded ++ ((memberMap s b.toNat).filter (fun q => !rec.accounted q)).map (fun q => (q, 1)))) ∧
     (bkIsHome s b.toNat = true → pageEn s 0x007 = true →
       (∀ y, mfind s.red.records (parKey b.toNat s.bnd.step) = some y →
         (y.step = s.bnd.step → y.past = true) ∧ (y.step ≤ s.bnd.step → y.delivered = true)) →
       Runs (.recordOpenEmpty b) s (fun t => t.now = max s.now (s.bnd.begun + homeWait s b.toNat) ∧
         ∃ y, recordOf t b.toNat s.bnd.step = some y ∧ y.state = 1 ∧ y.sum = List.replicate (bkLen s b.toNat) 0 ∧
           y.included = [] ∧ y.excluded = [] ∧ y.cleared = [] ∧ y.delivered = false ∧
           y.opened = s.bnd.begun + homeWait s b.toNat ∧ (s.bnd.earlyAt = none → y.deadline = y.opened + homeWait s b.toNat))) ∧
     (mfind s.red.records (key odd) = some rec → rec.step % 2 = (if odd then 1 else 0) → rec.state = 2 →
       Runs (.epwaitExpire b odd) s (fun t => t.now = max s.now (rec.collectedAt + epochWait s b.toNat + 1) ∧
         Logged redPage 4 s t ∧ ∃ y, mfind t.red.records (key odd) = some y ∧ y.state = 5 ∧ y.included = [] ∧ y.sum = [] ∧
           y.excluded = rec.excluded ++ rec.included.map (fun q => (q, 5))))) ∧
  (∀ (a b : RedMsg) (rec : Record) (s : State),
     let n := bkLen s a.bucket
     let who := redMembers a
     a.type = 1 → b.type = 1 → b.bucket = a.bucket → b.step = a.step → b.scale = a.scale →
     recordOf s a.bucket a.step = some rec → rec.state = 1 → rec.past = false →
     rec.included.Pairwise (· < ·) → who.Nodup → (∀ m ∈ who, m ∉ redMembers b ∧ rec.accounted m = false) → (∀ m ∈ redMembers b, rec.accounted m = false) →
     a.elems.length = n → b.elems.length = n → rec.sum.length = n →
     referenceOf s a.bucket a.step = some a.scale →
     rec.included.length + rec.excluded.length + who.length < bkMembers s a.bucket →
     (applyHome (joinRed a b) s).red.records = (applyHome b (applyHome a s)).red.records ∧
     (joinRed a b).count = a.count + b.count ∧ (∀ m, m ∈ redMembers (joinRed a b) ↔ m ∈ who ∨ m ∈ redMembers b) ∧
     redMsgOk s (joinRed a b) = redMsgOk s a)

/-- Calibration slots (R77 to R93, R384): a configuration waits for the boundary, a field out of range skips the write with
FIELDSKIP, CLRHIST asks for a clear; a derivation enters the ended step's observation into the ring, widened by G when it saturated,
and takes the window's largest order, T0 of a FIXED slot or an empty window. A LOCAL or FIXED slot has its scale in force at once;
an AGREED one shows it as its proposal, sends it to the home of every bucket bound to it, and has an AGREE that came early in force,
or falls back where the member deadline has fallen.
Where it rests on the model's reading, see log entries 46, 90, 91 and 98. -/
def Obligations.CalibrationEffects : Prop :=
  ∀ (r : Req) (v : W32) (slot : BitVec 14) (s : State),
    let n := calSel s r
    let x := calGet s n
    let w := v.toNat
    let others := fun (n : Nat) (t : State) => (∀ q, q ≠ n → calGet t q = calGet s q) ∧ t = { s with cal := t.cal }
    let h := bitsOf w 13 8
    let g := bitsOf w 28 24
    let y := calGet s slot.toNat
    let skip := fun (t : State) => Logged 0 5 s t ∧ t.cal = s.cal ∧ t.mem = s.mem ∧ t.cores = s.cores
    let ended := (y.dueStep + (2 ^ 64 - 1)) % 2 ^ 64 % 16
    let widened := y.obsEnded.sat = true ∧ y.cfg.mode ≠ 3
    let entry := if widened then some (min 1023 (max (y.obsEnded.order.getD (y.tmax + y.cfg.g)) (y.tmax + y.cfg.g)))
      else y.obsEnded.order
    let ring := if y.writes then (match entry with
      | some o => mset y.ring ended o
      | none => mdel y.ring ended) else y.ring
    let window := windowMax { y with ring := ring } ((y.dueStep : Int) - 1)
    let order := if y.cfg.mode = 3 then y.cfg.t0 else window.getD y.cfg.t0
    let derived := fun (o : Int) (t : State) =>
      let z := calGet t slot.toNat
      z.due = false ∧ z.forStep = some y.dueStep ∧ z.tmax = o ∧ z.anchor = (scaleOf y.cfg o).1 ∧
      z.ebyte = (scaleOf y.cfg o).2.1 ∧ z.ring = ring ∧ (∀ q, q ≠ slot.toNat → calGet t q = calGet s q) ∧
      (y.writes = true → y.obsEnded.sat = true → Logged 0x010 0 s t ∧ z.satSteps = min 255 (y.satSteps + 1)) ∧
      (y.writes = true → widened → y.obsEnded.order.all (fun p => decide (p < y.tmax + y.cfg.g ∧ p < 1023)) = true →
        Logged 0x010 1 s t) ∧
      (y.cfg.mode ≠ 3 → window = none → Logged 0x010 5 s t) ∧ t.mem = s.mem ∧ t.cores = s.cores ∧ t.red = s.red
    (reaches r s = true →
      (4 ≤ h → h ≤ 60 → g ≠ 0 → ∃ t, exec (.calCfgWrite r v) s = .next t ∧ others n t ∧ calGet t n = { x with
        pending := { x.pending with mode := bitsOf w 1 0, wm1 := bitsOf w 7 4, h := h, ho := bitsOf w 19 16, g := g } }) ∧
      ((h < 4 ∨ 60 < h ∨ g = 0) → Runs (.calCfgWrite r v) s skip) ∧
      (bitsOf w 10 0 ≠ 0x400 →
        (∃ t, exec (.calSeedWrite r v) s = .next t ∧ others n t ∧ calGet t n = { x with
          pending := { x.pending with t0 := signedOf 11 (bitsOf w 10 0) }, clearReq := x.clearReq || bitOf w 31 }) ∧
        (∃ t, exec (.clrhist r v) s = .next t ∧ others n t ∧ (calGet t n).clearReq = true ∧ (calGet t n).cfg = x.cfg ∧
          (calGet t n).ring = x.ring ∧ (calGet t n).pending = { x.pending with t0 := signedOf 11 (bitsOf w 10 0) })) ∧
      (bitsOf w 10 0 = 0x400 → Runs (.calSeedWrite r v) s skip ∧ Runs (.clrhist r v) s skip)) ∧
    (y.due = true → (∀ q, q < slot.toNat → (calGet s q).due = false) →
      (y.cfg.mode ≠ 2 → Runs (.calDeriveDone slot) s (fun t => derived order t ∧ (calGet t slot.toNat).pendAgree = false ∧
        t.ick = s.ick ∧ ((scaleOf y.cfg order).2.2 = true → Logged 0x010 2 s t))) ∧
      (y.cfg.mode = 2 →
        let bound := (buckets s).filter (fun b => bkMember s b && bkSlot s b == slot.toNat)
        let proposed := fun (t : State) => ∃ l, t.ick.outbox = s.ick.outbox ++ l ∧
          l.map (fun o => (o.dest, (redBody o).map (fun q => (q.type, q.step, q.bucket, q.tmax)))) =
            bound.map (fun b => (bkHome s b, some (4, y.dueStep, b, order)))
        (mfind y.kept y.dueStep = none → boundClosed s slot.toNat y.dueStep = false → Runs (.calDeriveDone slot) s (fun t =>
          derived order t ∧ (calGet t slot.toNat).pendAgree = true ∧ proposed t)) ∧
        (mfind y.kept y.dueStep = none → boundClosed s slot.toNat y.dueStep = true → Runs (.calDeriveDone slot) s (fun t =>
          derived order t ∧ (calGet t slot.toNat).pendAgree = false ∧ (calGet t slot.toNat).fellBack = true ∧
          Logged 0x010 6 s t ∧ proposed t)) ∧
        (∀ o, mfind y.kept y.dueStep = some o → Runs (.calDeriveDone slot) s (fun t =>
          derived o t ∧ (calGet t slot.toNat).pendAgree = false ∧ proposed t))))

/-! ### The scheduler -/

/-- Tile-register commits and task slots (R184, R205, R206, R225, R228): a write that reaches TR_EB commits every staged word; a
slot is armed, written and cancelled in the states that permit it, and SLOTWR is logged in the others. A host function's write
while Meridian is not in RUN is discarded with MERIDOFF (R20, R431).
Where it rests on the model's reading, see log entry 1. -/
def Obligations.SlotEffects : Prop :=
  ∀ (r : Req) (c : CoreId) (t8 : BitVec 8) (slot : BitVec 10) (word : Fin 16) (v : W32) (k : Task) (s : State),
    let n := slot.toNat
    let tr := t8.toNat
    let st := (slotOf (s.core c) n).state
    let sched := (s.core c).sched
    let page := tsPage c n
    let off := tsOff n + 4 * word.val
    let others := fun (t : State) => ∀ q, q ≠ n → slotOf (t.core c) q = slotOf (s.core c) q
    let refused := fun (t : State) => Logged (coreP c 1) 3 s t ∧ t.cores = s.cores ∧ t.mem = s.mem ∧ t.objs = s.objs ∧
      WordsKept (coreP c 1) (List.range 4096) s t
    let commit := trOff tr + 0x1C
    let ea := mfind s.heldLow (rkey (reqBank r) (trPage c tr) (commit - 4))
    (reaches r s = true →
      Runs (.trCommit r c t8 v) s (fun t =>
        (∀ w, w < 7 → (w = 6 → ea = none) → rawWord t 0 (trPage c tr) (trOff tr + 4 * w) =
          ((mfind (s.core c).staged (tr * 8 + w)).map (·.toNat)).getD (rawWord s 0 (trPage c tr) (trOff tr + 4 * w))) ∧
        (∀ u, ea = some u → rawWord t 0 (trPage c tr) (commit - 4) =
          Nat.land u.toNat (maskOf (fun a => a == .rw) (regAt (trPage c tr) (commit - 4)).2)) ∧
        mfind t.heldLow (rkey (reqBank r) (trPage c tr) (commit - 4)) = none ∧
        (∀ q, q / 8 = tr → mfind (t.core c).staged q = none) ∧
        (∀ q, q / 8 ≠ tr → mfind (t.core c).staged q = mfind (s.core c).staged q) ∧
        (t.core c).ctl = (s.core c).ctl ∧ (t.core c).sched = sched ∧ CoreOnly c { s with heldLow := t.heldLow } t) ∧
      ((st = 0 ∨ st = 5) → (regAt page off).1 ≠ 1 → Runs (.slotWrite r c slot word v) s (fun t =>
        rawWord t 0 page off = putMask (rawWord s 0 page off) (writable s page (regAt page off).2) v.toNat % 2 ^ 32 ∧
        WordsKept page [off - 4, off] s t ∧ t = { s with regs := t.regs, heldLow := t.heldLow })) ∧
      ((st = 0 ∨ st = 5) → (regAt page off).1 = 1 → Runs (.slotWrite r c slot word v) s (fun t =>
        mfind t.heldLow (rkey (reqBank r) page off) = some v ∧ t = { s with heldLow := t.heldLow })) ∧
      (st ≠ 0 → st ≠ 5 → Runs (.slotWrite r c slot word v) s refused) ∧
      ((st = 0 ∨ st = 5) → armQualifies s r (slotCtx s c n) = true → inService s c = true →
        Runs (.schArm r c slot) s (fun t => slotOf (t.core c) n = ⟨1, sched.armSeq + 1⟩ ∧ others t ∧
          (t.core c).sched.armSeq = sched.armSeq + 1 ∧ (t.core c).sched.task = sched.task ∧ CoresKept c s t ∧
          t = { s with cores := t.cores, mig := { s.mig with idleSince := t.mig.idleSince } })) ∧
      ((st ≠ 0 ∧ st ≠ 5) ∨ armQualifies s r (slotCtx s c n) = false ∨ inService s c = false →
        Runs (.schArm r c slot) s refused) ∧
      ((st = 1 ∨ st = 5) → Runs (.schCancel r c slot) s (fun t =>
        (slotOf (t.core c) n).state = 0 ∧ others t ∧ (t.core c).sched.task = sched.task ∧ CoresKept c s t ∧
        t = { s with cores := t.cores })) ∧
      ((st = 2 ∨ st = 3) → sched.task = some k → k.slot = n → k.sampled = false → Runs (.schCancel r c slot) s (fun t =>
        (slotOf (t.core c) n).state = 4 ∧ others t ∧ (t.core c).ctl.running = false ∧
        (∀ q, queueOf (t.core c) q = []) ∧ (t.core c).queues.flights = [] ∧ (∀ g, (t.core c).groups.get g =
          if ((s.core c).groups.get g).state = 0 then (s.core c).groups.get g else Group.reset) ∧
        ((t.core c).sched.task.map (·.held)) = some [] ∧ ((t.core c).sched.task.map (·.halt)) = some .cancel ∧
        CoresKept c s t ∧ t.mem = s.mem ∧ t.objs = s.objs)) ∧
      ((st = 0 ∨ st = 4) → Runs (.schCancel r c slot) s refused)) ∧
    (∀ p f, r = .func p f → s.power.meridian ≠ 2 →
      ∀ i ∈ [Instr.trCommit r c t8 v, .schArm r c slot, .slotWrite r c slot word v, .schCancel r c slot],
        Runs i s (fun t => t = logMeridoff p f s)) ∧
    (sched.task = some k → k.halt = .cancel → k.slot = n → enginesIdle s c = true → Runs (.cancelComplete c) s (fun t =>
      (slotOf (t.core c) n).state = 0 ∧ others t ∧ (t.core c).sched.task = none ∧ CoresKept c s t ∧
      t = { s with cores := t.cores }))

/-- Dispatch (R159, R208): of the slots that wait, whose condition holds and whose page is READY and context enabled, the one of
the highest priority, and of these the one armed first, runs its task from its entry with S56 to S59 set, empty tags, a fresh
array and keyed generators. Only an idle, awake core in service of a running Meridian dispatches.
The runs of a task (R175, R214 to R218, R402 to R407): at the end of an original that is not sampled its CLOSED
groups are released, its OPEN ones discarded with GRPLEFT, its held operations applied in order and its slot freed; a replay, a check run and a deciding run begin afresh from the saved registers; a replay
without progress fails, once the row that its transfers had begun to send elsewhere is out; a check run that agrees commits what the original held.
Where it rests on the model's reading, see log entries 1, 79 and 101. -/
def Obligations.RunEffects : Prop :=
  (∀ (c : CoreId) (n : Nat) (s : State),
     let waits := fun (m : Nat) => (slotOf (s.core c) m).state = 1 ∧ slotReady s c m = true ∧
       mget PageState.opened (s.core c).ctl.pages (slotPage s c m) = .ready ∧ ctxEnabled s (slotCtx s c m) = true
     let key := BitVec.ofNat 64 (rawPair s 0 (tsPage c n) (tsOff n + 8))
     mayDispatch s c = true → waits n →
     (∀ m, waits m → m = n ∨ slotPrio s c m < slotPrio s c n ∨
       (slotPrio s c m = slotPrio s c n ∧ (slotOf (s.core c) n).seq < (slotOf (s.core c) m).seq)) →
     ∃ t, exec (.dispatch c) s = .next t ∧ (
       let k := t.core c
       (∃ x, k.sched.task = some x ∧ x.slot = n ∧ x.ctx = slotCtx s c n ∧ x.step = s.bnd.step ∧ x.key = key ∧
         x.page = slotPage s c n ∧ x.guarded = false ∧ x.halt = .no ∧ x.held = [] ∧ x.parts = [] ∧ x.run = .original) ∧
       (slotOf k n).state = 2 ∧ (∀ q, q ≠ n → slotOf k q = slotOf (s.core c) q) ∧
       k.ctl.running = true ∧ k.ctl.ended = false ∧ k.ctl.page = slotPage s c n ∧ k.ctl.pc = slotEntry s c n ∧
       sget k 56 = BitVec.ofNat 64 n ∧ sget k 57 = BitVec.ofNat 64 (slotCtx s c n) ∧
       sget k 58 = BitVec.ofNat 64 s.bnd.step ∧ sget k 59 = key ∧
       (∀ r, r < 56 ∨ 59 < r → sget k r = sget (s.core c) r) ∧
       k.queues.flights = [] ∧ k.array = Array.reset ∧ k.vec.genKey = key ∧ k.vec.genCount = 0 ∧ k.sched.tags = [] ∧
       k.groups = (s.core c).groups ∧ k.vec.regs = (s.core c).vec.regs ∧
       rawPair t 0 (coreP c 1) 0x120 = min (rawPair s 0 (coreP c 1) 0x120 + 1) (2 ^ 64 - 1) ∧ CoreOnly c s t)) ∧
  (∀ (c : CoreId) (k : Task) (s : State), (s.core c).sched.task = some k →
     let core := s.core c
     let applied := fun (held : List HeldOp) (o : Nat) => held.foldl (fun (x : W64) op => match op with
       | .add q v => if q = o then x + v else x
       | .set q v => if q = o then v else x
       | .remoteAdd _ _ _ _ => x
       | .remoteSet _ _ _ _ => x) (objGet s o)
     let part := fun (x : Option Xfer) => x.any (fun y => y.ofCore c && decide (0 < y.wpart))
     let partSent := s.chans.any (fun q => part q.active || part q.shadow) = true
     let isLocal := fun (held : List HeldOp) => ∀ op ∈ held, (∃ q v, op = .add q v) ∨ (∃ q v, op = .set q v)
     let gone := fun (t : State) => (t.core c).sched.task = none ∧ (slotOf (t.core c) k.slot).state = 0 ∧
       (∀ q, q ≠ k.slot → slotOf (t.core c) q = slotOf core q) ∧ CoresKept c s t ∧ t.mem = s.mem ∧
       rawPair t 0 (coreP c 1) 0x128 = min (rawPair s 0 (coreP c 1) 0x128 + 1) (2 ^ 64 - 1)
     let afresh := fun (guarded : Bool) (run : RunKind) (t : State) =>
       (∃ x, (t.core c).sched.task = some x ∧ x.slot = k.slot ∧ x.guarded = guarded ∧ x.run = run ∧ x.halt = .no ∧
         x.held = [] ∧ x.parts = [] ∧ x.runEnded = false ∧ x.sampled = k.sampled) ∧
       (slotOf (t.core c) k.slot).state = (if guarded then 3 else 2) ∧ (t.core c).ctl.sregs = core.ctl.saved ∧
       (t.core c).ctl.pc = k.entry ∧ (t.core c).ctl.running = true ∧ (t.core c).queues.flights = [] ∧ CoreOnly c s t
     (core.taskOver = true → k.run = .original → k.matrix = true → k.lineFail = false → k.sampled = false → k.parts = [] →
       isLocal k.held → Runs (.taskEnd c) s (fun t => gone t ∧ (∀ o, objGet t o = applied k.held o) ∧
         (∀ g, g < 4 →
           ((groupOf core g).state = 3 → groupOf (t.core c) g = { groupOf core g with state := 0 } ∧
             ∀ i q, i < 256 → q < 256 → cellOf (t.core c) g i q = cellOf core g i q) ∧
           ((groupOf core g).state = 1 → groupOf (t.core c) g = Group.reset ∧
             (∀ i q, i < 256 → q < 256 → cellOf (t.core c) g i q = Cell.zero) ∧
             (k.grpLeft = false → Logged (coreP c 1) 2 s t))))) ∧
     (k.halt = .fault → enginesIdle s c = true → Runs (.guardedReplay c) s (fun t => afresh true k.run t ∧
       rawPair t 0 (coreP c 1) 0x130 = min (rawPair s 0 (coreP c 1) 0x130 + 1) (2 ^ 64 - 1))) ∧
     (k.guarded = true → k.halt = .no → k.sampled = false → ¬partSent → Runs (.replayHang c) s (fun t =>
       (t.core c).sched.task = none ∧ (slotOf (t.core c) k.slot).state = 5 ∧ Logged (coreP c 1) 1 s t ∧
       (∀ q, queueOf (t.core c) q = []) ∧ CoresKept c s t ∧ t.mem = s.mem ∧ t.objs = s.objs)) ∧
     (k.guarded = true → k.halt = .no → k.sampled = false → partSent → Runs (.replayHang c) s (fun t =>
       ((t.core c).sched.task.map (·.halt)) = some (.failed 0) ∧ (slotOf (t.core c) k.slot).state = 4 ∧
       (∀ q, queueOf (t.core c) q = []) ∧ CoresKept c s t ∧ t.mem = s.mem ∧ t.objs = s.objs)) ∧
     (∀ n, k.halt = .failed n → enginesIdle s c = true → Runs (.cancelComplete c) s (fun t =>
       (t.core c).sched.task = none ∧ (slotOf (t.core c) k.slot).state = 5 ∧ Logged (coreP c 1) 1 s t ∧ CoresKept c s t ∧
       t.mem = s.mem ∧ t.objs = s.objs)) ∧
     (k.halt = .no → k.runEnded = true → k.sampled = true → k.run = .original →
       Runs (.checkRun c) s (afresh false .check)) ∧
     (k.halt = .no → k.runEnded = true →
       (k.run = .original → k.lineFail = true → Runs (.decidingRun c) s (afresh false (.deciding true))) ∧
       (k.run = .check → mismatched k = true → Runs (.decidingRun c) s (afresh false (.deciding false))) ∧
       (k.run = .check → mismatched k = false → k.parts = [] → isLocal k.firstHeld → Runs (.runOutcome c) s (fun t =>
         gone t ∧ (∀ o, objGet t o = applied k.firstHeld o) ∧
         (∀ q ∈ t.red.attached, q.2 ≠ c.val)))))

/-- Contexts, synchronisation objects and instruction pages (R173, R177, R219, R220, R223,
R224): a requester that qualifies writes a context's words, and CTXWR is logged for another; an object write sets or adds at
once, modulo 2^64; a page moves between OPEN, READY and CLOSING. -/
def Obligations.ContextEffects : Prop :=
  ∀ (r : Req) (c : CoreId) (p : Fin 4) (v : W32) (w : W64) (s : State),
    let ctx := ctxSel s r
    let ok := mayWriteCtx s r ctx = true
    let refused := fun (t : State) => Logged ctxPage 0 s t ∧ t.cores = s.cores ∧ t.chans = s.chans ∧ t.mem = s.mem ∧
      (∀ b o, o < 4096 → 0 < b → rawWord t b ctxPage o = rawWord s b ctxPage o)
    let k := s.core c
    let st := fun (k : Core) (q : Nat) => mget PageState.opened k.ctl.pages q
    let active := pageActive k p.val
    let moved := fun (x : PageState) (t : State) => st (t.core c) p.val = x ∧ (∀ q, q ≠ p.val → st (t.core c) q = st k q) ∧
      CoresKept c s t ∧ t = { s with cores := t.cores }
    let skipped := fun (t : State) => Logged (coreP c 0) 4 s t ∧ t.cores = s.cores ∧ t.mem = s.mem
    (ok → bitOf v.toNat 8 = false → Runs (.ctxCfgWrite r v) s (fun t =>
      rawWord t (entryBank ctx) ctxPage 0x104 = bitsOf v.toNat 1 0 ∧ t = { s with regs := t.regs })) ∧
    (ok → (∀ d n, (slotOf (s.core d) n).state = 2 ∨ (slotOf (s.core d) n).state = 3 →
        (s.core d).sched.task.map (·.slot) = some n) → Runs (.ctxCancel r) s (fun t =>
      rawWord t (entryBank ctx) ctxPage 0x104 = fieldOf s (entryBank ctx) ctxPage 0x104 1 0 ∧
      (∀ d n, slotCtx s d n = ctx → n ∈ (s.core d).sched.slots.map (·.1) →
        (slotOf (t.core d) n).state ≠ 1 ∧ (slotOf (t.core d) n).state ≠ 2 ∧ (slotOf (t.core d) n).state ≠ 3) ∧
      t.mem = s.mem)) ∧
    (ok → Runs (.ctxSeedWrite r w) s (fun t =>
      rawPair t (entryBank ctx) ctxPage 0x110 = w.toNat ∧ t = { s with regs := t.regs })) ∧
    (mayWriteCtx s r ctx = false → Runs (.ctxCfgWrite r v) s refused ∧ Runs (.ctxSeedWrite r w) s refused) ∧
    Runs (.soValWrite r w) s (fun t => objGet t (soSel s r) = w ∧ (∀ o, o ≠ soSel s r → objGet t o = objGet s o) ∧
      ObjsOnly s t) ∧
    Runs (.soAddWrite r w) s (fun t => objGet t (soSel s r) = objGet s (soSel s r) + w ∧
      (∀ o, o ≠ soSel s r → objGet t o = objGet s o) ∧ ObjsOnly s t) ∧
    (reaches r s = true →
      (active = true → st k p.val ≠ .opened → Runs (.reqopen r c p) s (moved .closing)) ∧
      (active = false → st k p.val = .ready → Runs (.reqopen r c p) s (moved .opened)) ∧
      (st k p.val = .opened → Runs (.reqready r c p) s (moved .ready) ∧ Runs (.reqopen r c p) s skipped) ∧
      (st k p.val ≠ .opened → Runs (.reqready r c p) s skipped))

/-! ### Unified memory -/

/-- Requests of the memory page (R237, R249, R252, R253, R257, R259, R261): ALLOC makes every page of the range an empty page of the
context, pinned ones with a frame or waiting for one; UNPIN and SETPLACE act at once, the others are in progress until
MEM_REQUEST_DONE, with the status and the signal R259 gives; a refusal, RANGE and PERM among them, changes no page; a request that
may not start, or names the reserved PLACE, logs MEMSKIP.
Where it rests on the model's reading, see log entries 18, 21 and 103.
Requests in progress complete while Meridian runs (R237, R238, R243, R252, R259, R471): a freed page's bytes read zero and no
other byte changes; a demoted page holds no frame and no tile of it stays in HBM; a pinned page is pinned in a frame, a promoted one
has no tile left in LP5X alone, a written back one no DIRTY tile. All but FREE leave the contents of memory.
Where it rests on the model's reading, see log entries 18, 21 and 97. -/
def Obligations.MemoryRequests : Prop :=
  (∀ (r : Req) (op4 : BitVec 4) (s : State),
     let m := memCmdOf s r
     let status := fun (t : State) => rawWord t (reqBank r) memPage 0x144
     let cmd := fun (op : Nat) => if op = 1 then Instr.alloc r else if op = 2 then .memFree r else if op = 3 then .memPin r
       else if op = 4 then .memUnpin r else if op = 5 then .promote r else if op = 6 then .demote r
       else if op = 7 then .writeback r else .setplace r
     let passes := fun (op : Nat) => memBusy s r = false ∧ (m.place = 3 → op ≠ 1 ∧ op ≠ 8) ∧ 
       (m.count ≠ 0 → m.first + m.count ≤ 1572864) ∧
       (op = 1 → memQualifies s r m.ctx = true)
     let kept := fun (t : State) => t.mem = s.mem ∧ t.cores = s.cores ∧ t.chans = s.chans ∧ t.mig.tiles = s.mig.tiles
     let done := fun (t : State) => status t = (2 + m.count * 2 ^ 8) % 2 ^ 32 ∧
       ∀ o, objGet t o = objGet s o + (if m.sig = some o then BitVec.ofNat 64 m.count else 0)
     (∀ op, 1 ≤ op → op ≤ 8 → passes op →
       (m.count = 0 → Runs (cmd op) s (fun t => done t ∧ kept t ∧ t.mig = s.mig)) ∧
       (0 < m.count → lateRefusal s r op m = none →
         (op = 1 → m.pin = false → Runs (cmd op) s (fun t => done t ∧ kept t ∧
           (∀ p ∈ m.pages, ∃ x, t.mpage p = some x ∧ x.ctx = m.ctx ∧ x.frame = none ∧ x.extent = none ∧ x.pinned = false ∧
             x.place = m.place ∧ x.moving = 0) ∧ (∀ p, p ∉ m.pages → t.mpage p = s.mpage p))) ∧
         (op = 1 → m.pin = true → Runs (cmd op) s (fun t => done t ∧ t.mem = s.mem ∧ t.cores = s.cores ∧
           (∀ p ∈ m.pages, ∃ x, t.mpage p = some x ∧ x.ctx = m.ctx ∧ x.pinned = true ∧ x.place = m.place ∧ x.moving = 0 ∧
             x.wantsFrame = x.frame.isNone ∧ (s.power.meridian ≠ 2 → x.frame = none) ∧
             (∀ f, s.power.meridian = 2 → m.count = 1 → useOf s m.ctx < effQuota s m.ctx → freeFrame s = some f →
               x.frame = some f)))) ∧
         (op = 4 → Runs (cmd op) s (fun t => done t ∧ kept t ∧
           (∀ p ∈ m.pages, t.mpage p = (s.mpage p).map (fun x => { x with pinned := false, wantsFrame := false })) ∧
           (∀ p, p ∉ m.pages → t.mpage p = s.mpage p))) ∧
         (op = 8 → Runs (cmd op) s (fun t => done t ∧ kept t ∧
           (∀ p ∈ m.pages, t.mpage p = (s.mpage p).map (fun x => { x with place := m.place })) ∧
           (∀ p, p ∉ m.pages → t.mpage p = s.mpage p))) ∧
         (op = 2 ∨ op = 3 ∨ op = 5 ∨ op = 6 ∨ op = 7 → Runs (cmd op) s (fun t => status t = 1 ∧ kept t ∧ t.objs = s.objs ∧
           mfind t.mig.requests (reqCode r) = some { op := op, left := m.pages, count := m.count, sig := m.sig, done := 0 } ∧
           (∀ p ∈ m.pages, op = 6 ∨ op = 7 → t.mpage p = (s.mpage p).map (fun x =>
             if x.frame.isSome ∧ x.moving ≤ 1 then
               { x with moving := if op = 6 then 2 else if x.moving = 1 then 5 else 3 } else x)) ∧
           (∀ p, p ∉ m.pages ∨ op < 6 → t.mpage p = s.mpage p)))) ∧
       (∀ st, 0 < m.count → lateRefusal s r op m = some st → Runs (cmd op) s (fun t => status t = st % 2 ^ 32 ∧ kept t ∧
         t.mig = s.mig ∧ t.objs = s.objs ∧ (op = 1 ∨ op = 3 → Logged memPage 0 s t)))) ∧
     (∀ op, 1 ≤ op → op ≤ 8 → memBusy s r = false → (m.place = 3 → op ≠ 1 ∧ op ≠ 8) →
       let range := 0 < m.count ∧ 1572864 < m.first + m.count
       (range → Runs (cmd op) s (fun t => status t = 8 ∧ kept t ∧ t.mig = s.mig ∧ t.objs = s.objs ∧
         (op = 1 ∨ op = 3 → Logged memPage 0 s t))) ∧
       (¬range → op = 1 → memQualifies s r m.ctx = false → Runs (cmd op) s (fun t => status t = 7 ∧ kept t ∧ t.mig = s.mig ∧
         t.objs = s.objs ∧ Logged memPage 0 s t))) ∧
     (∀ op, op = 1 ∨ op = 8 → memBusy s r = false → m.place = 3 → Runs (cmd op) s (fun t =>
       Logged memPage 7 s t ∧ kept t ∧ t.mig = s.mig ∧ t.objs = s.objs ∧ status t = status s)) ∧
     (∀ op, 1 ≤ op → op ≤ 8 → memBusy s r = true → Runs (cmd op) s (fun t =>
       Logged memPage 7 s t ∧ kept t ∧ t.mig = s.mig ∧ t.objs = s.objs ∧ status t = status s)) ∧
     (op4.toNat = 0 ∨ 8 < op4.toNat → Runs (.memReservedOp r op4) s (fun t =>
       Logged memPage 7 s t ∧ kept t ∧ t.mig = s.mig ∧ t.objs = s.objs ∧ status t = status s))) ∧
  (∀ (r : Req) (q : MemReq) (p : Nat) (x : MPage) (page : Nat) (s : State),
     let out := fun (t : State) (p : Nat) => (∃ y, t.mpage p = some y ∧ y.frame = none ∧ y.moving = 0 ∧ y.ctx = x.ctx) ∧
       tilesIn t p .clean = [] ∧ tilesIn t p .dirty = [] ∧ t.mem = s.mem ∧ t.cores = s.cores
     let calm := s.mig.pages.all (fun y => !y.2.wantsFrame) = true ∧ s.mig.tiles.Pairwise (fun a b => a.1 < b.1) ∧
       s.power.meridian = 2
     let last := fun (t : State) => mfind t.mig.requests (reqCode r) = none ∧
       rawWord t (reqBank r) memPage 0x144 = (2 + (q.done + 1) * 2 ^ 8) % 2 ^ 32 ∧ t.mem = s.mem ∧ t.cores = s.cores ∧
       ∀ o, objGet t o = objGet s o + (if q.sig = some o then 1 else 0)
     let framed := x.frame.isSome = true ∨ ((freeFrame s).isSome = true ∧ useOf s x.ctx < effQuota s x.ctx)
     (mfind s.mig.requests (reqCode r) = some q →
       (q.op = 2 → s.power.meridian = 2 → q.left.any (pageWaited s) = false → Runs (.memRequestDone r) s (fun t =>
         (∀ y ∈ q.left, t.mpage y = none) ∧ (∀ a, a / 0x200000 ∈ q.left → memGet t.mem a = 0) ∧
         (∀ a, a / 0x200000 ∉ q.left → memGet t.mem a = memGet s.mem a) ∧ mfind t.mig.requests (reqCode r) = none ∧
         rawWord t (reqBank r) memPage 0x144 = (2 + q.count * 2 ^ 8) % 2 ^ 32)) ∧
       (q.op = 6 → q.left = [p] → s.mpage p = some x → x.frame.isSome = true → x.pinned = false → calm →
         Runs (.memRequestDone r) s (fun t => out t p ∧ last t)) ∧
       (q.op = 3 → q.left = [p] → s.mpage p = some x → x.moving ≤ 1 → framed → calm → Runs (.memRequestDone r) s (fun t =>
         (∃ y, t.mpage p = some y ∧ y.pinned = true ∧ y.frame.isSome = true ∧ y.ctx = x.ctx) ∧ tilesIn t p .low = [] ∧
         (∀ y, y ≠ p → t.mpage y = s.mpage y) ∧ last t)) ∧
       (q.op = 5 → q.left = [p] → s.mpage p = some x → x.moving ≤ 1 → framed → calm → Runs (.memRequestDone r) s (fun t =>
         tilesIn t p .low = [] ∧ (∃ y, t.mpage p = some y ∧ y.pinned = x.pinned ∧ y.ctx = x.ctx) ∧
         (∀ y, y ≠ p → t.mpage y = s.mpage y) ∧ last t)) ∧
       (q.op = 7 → q.left = [p] → s.mpage p = some x → calm → Runs (.memRequestDone r) s (fun t =>
         tilesIn t p .dirty = [] ∧ (∃ y, t.mpage p = some y ∧ y.frame = x.frame ∧ y.pinned = x.pinned ∧ y.ctx = x.ctx) ∧ last t))) ∧
     (s.mpage page = some x → x.moving = 2 ∨ x.moving = 4 → calm → Runs (.demotionComplete page) s (fun t => out t page)))

/-- The migration engine's own acts (R240 to R243, R250, R251, R253, R257): a fault waits with its tile; served, it leaves a fetched or
zero-filled tile; a background fetch takes the lowest LOW tile; evictions mark their page; a tick ages; of the SEQ pages of an
idle context the oldest is demoted first, one at a time.
Where it rests on the model's reading, see log entries 18, 19 and 97; that nothing changes where no page may be
demoted rests on log entry 1. -/
def Obligations.MigrationEffects : Prop :=
  ∀ (r : Req) (v : W32) (tile : Nat) (isWrite : Bool) (who : Fin 10) (ctx : BitVec 14) (page : Nat) (x : MPage) (s : State),
    let sel := fieldOf s (reqBank r) memPage 0x150 13 0
    let kept := fun (t : State) => t.mem = s.mem ∧ t.cores = s.cores ∧ t.objs = s.objs
    let f := mfind s.mig.pages (tile / 512)
    (mayWriteQuota s r sel = true →
      Runs (.memQuotaWrite r v) s (fun t => rawWord t (entryBank sel) memPage 0x154 = v.toNat % 2 ^ 21 ∧ kept t ∧ t.mig = s.mig) ∧
      Runs (.memLimitWrite r v) s (fun t => 
        rawWord t (entryBank sel) memPage 0x158 = v.toNat % 2 ^ 21 ∧ t = { s with regs := t.regs })) ∧
    (mayWriteQuota s r sel = false →
      Runs (.memQuotaWrite r v) s (fun t => Logged memPage 7 s t ∧ kept t ∧ t.mig = s.mig) ∧
      Runs (.memLimitWrite r v) s (fun t => Logged memPage 7 s t ∧ kept t ∧ t.mig = s.mig)) ∧
    (s.power.meridian = 2 → f = some x → x.moving ≤ 1 → x.frame.isSome = true → faults s isWrite tile = true →
      s.mig.faults.any (fun g => g.1 == tile) = false → Runs (.tileFault tile isWrite who) s (fun t =>
        t = { s with mig := { s.mig with faults := s.mig.faults ++ [(tile, isWrite, who.val)] } })) ∧
    (∀ g, s.power.meridian = 2 → f = some x → x.frame.isSome = true → nextFault s = some g → g.1 = tile → s.mig.waiters = [] →
      (∀ p, (s.host p).windowQ = []) → Runs (.faultServed tile) s (fun t =>
        condOf t tile = (match condOf s tile with
          | .low => .clean
          | .zero => if g.2.1 then .dirty else .zero
          | .clean => .clean
          | .dirty => .dirty) ∧
        (∀ y, y ≠ tile → condOf t y = condOf s y) ∧ t.mig.faults = s.mig.faults.filter (fun g => g.1 != tile) ∧
        rawPair t 0 memPage 0x180 = min (rawPair s 0 memPage 0x180 + 1) (2 ^ 64 - 1) ∧ kept t)) ∧
    (∀ y l, s.power.meridian = 2 → s.mpage page = some x → x.moving = 1 → x.frame.isSome = true → tilesIn s page .low = y :: l →
      s.mig.faults.all (fun g => decide (g.1 / 512 ≠ page)) = true →
      Runs (.backgroundFetch page) s (fun t => condOf t y = .clean ∧ (∀ z, z ≠ y → condOf t z = condOf s z) ∧
        rawPair t 0 memPage 0x188 = min (rawPair s 0 memPage 0x188 + 1) (2 ^ 64 - 1) ∧ kept t)) ∧
    (candidate s (fun y => decide (effQuota s y.ctx < useOf s y.ctx - countPages s (fun z => z.ctx == y.ctx && z.moving == 4)))
        = some page → s.mpage page = some x → Runs (.eviction) s (fun t =>
          t.mpage page = some { x with moving := 4 } ∧ (∀ y, y ≠ page → t.mpage y = s.mpage y) ∧ t = { s with mig := t.mig })) ∧
    Runs (.ageTick) s (fun t => t.mig.ticks = s.mig.ticks + 1 ∧ t.now = max s.now ((s.mig.ticks + 1) * 2 ^ 20) ∧
      t.mig.tiles = s.mig.tiles ∧ t.mig.faults = s.mig.faults ∧ kept t ∧
      ∀ p, (t.mpage p).map (fun y => (y.ctx, y.frame, y.extent, y.pinned)) =
        (s.mpage p).map (fun y => (y.ctx, y.frame, y.extent, y.pinned))) ∧
    (let mine := fun (y : MPage) => y.place == 2 && y.ctx == ctx.toNat
     ctxIdle s ctx.toNat = true → (s.mig.pages.map (·.1)).Nodup → (∀ y z, s.mpage y = some z → mine z = true → z.moving ≠ 4) →
      (candidate s mine = some page → s.mpage page = some x → Runs (.seqIdle ctx) s (fun t =>
        mine x = true ∧ (∀ y z, s.mpage y = some z → mine z = true → evictable s y z = true → ageOf s z ≤ ageOf s x) ∧
        t.mpage page = some { x with moving := 4 } ∧ (∀ y, y ≠ page → t.mpage y = s.mpage y) ∧ t = { s with mig := t.mig })) ∧
      (candidate s mine = none → Runs (.seqIdle ctx) s (fun t => t = s)))

/-- Errors of the memories and the accumulator debug window (R71, R74, R258, R409, R410, R460): a corrected error is counted, for its
unit, and for DRAM by its row within the window of hours; an uncorrectable one poisons its line and logs MEMERR, and
a parity error is charged to the core's task as a consumption; the debug window answers while its scope is open, and
writes to it are discarded.
Where it rests on the model's reading, see log entries 22, 51, 82 and 94; that an error read without error changes
nothing rests on log entry 1. -/
def Obligations.MemoryErrorEffects : Prop :=
  ∀ (site : ErrSite) (addr row : Nat) (errors : List (ErrSite × Nat × Nat)) (c : CoreId) (off : BitVec 23) (v : W32) (s : State),
    let dram := match site with
      | .hbm _ => true
      | .lp5x _ => true
      | .coreMem _ => false
      | .shared => false
      | .register _ => false
    let thr := fieldOf s 0 memPage 0x10C 7 0
    let at_ := siteOf s site addr
    let seen := s.power.hours :: inWindow s (mget [] s.mig.ceRows (rowKey at_ row))
    let unit := unitKey (siteUnit at_).1 (siteUnit at_).2
    let bytes := (debugEntry (s.core c) (off.toNat / 16)).drop (off.toNat % 16)
    Runs (.correctableError site addr row) s (fun t =>
      rawPair t 0 relPage 0x148 = min (rawPair s 0 relPage 0x148 + 1) (2 ^ 64 - 1) ∧ t.mem = s.mem ∧ t.cores = s.cores ∧
      mget 0 t.rel.ceUnits unit = mget 0 s.rel.ceUnits unit + 1 ∧
      (dram = true → thr = 0 ∨ seen.length < thr →
        mget [] t.mig.ceRows (rowKey at_ row) = seen ∧ t.mig.pages = s.mig.pages) ∧
      (dram = false → t.mig = s.mig)) ∧
    ((∀ q, site ≠ .register q) → Runs (.uncorrectableError site addr) s (fun t =>
      ((∀ q, site ≠ .hbm q) ∧ (∀ q, site ≠ .lp5x q) ∨ allocated s (pageOf addr) = true →
        poisoned t (addr / 64 * 64) 64 = true) ∧ (∀ l ∈ s.poison, l ∈ t.poison) ∧ Logged relPage 6 s t ∧ t.mem = s.mem ∧
      t.cores = s.cores)) ∧
    Runs (.uncorrectableError (.register c) addr) s (fun t =>
      Logged relPage 6 s t ∧ t.mem = s.mem ∧ t.poison = s.poison ∧
      ((s.core c).sched.task = none → t.cores = s.cores) ∧
      (∀ k, (s.core c).sched.task = some k → k.ctx < 16384 → Logged relPage 5 s t ∧ ctxEnabled t k.ctx = false)) ∧
    Runs (.scrub errors) s (fun t =>
      rawPair t 0 relPage 0x148 = min (rawPair s 0 relPage 0x148 + errors.length) (2 ^ 64 - 1) ∧ t.mem = s.mem ∧
      t.cores = s.cores ∧ (errors = [] → t = s)) ∧
    (scopeOpen s 0 = true → Runs (.accDebugRead c off) s (fun t =>
      t = { s with out := s.out ++ [.debugCell c.val off.toNat bytes] })) ∧
    (scopeOpen s 0 = false → Runs (.accDebugRead c off) s (fun t =>
      t.out = s.out ++ [.debugCell c.val off.toNat (List.replicate bytes.length 0)] ∧ Logged (coreP c 4) 6 s t ∧
      t.cores = s.cores)) ∧
    Runs (.accDebugWrite c off v) s (fun t => Logged (coreP c 4) 6 s t ∧ t.cores = s.cores ∧ t.mem = s.mem)

/-! ### The update engine and the step boundary -/

/-- The update engine (R283 to R287, R299, R300): COPY and entry writes act on an IDLE layer, else LYRWR; a start takes the
lowest layer that may begin, its readers done, and an update, a COPY, a rejection and an update without contributors each write
no byte outside the layer's tensors; an end reads the last bytes of the copies and makes the adds of R285. An engine whose accesses
must wait does nothing but start Meridian when it is Meridian that they wait for (R471). With nothing to do a command leaves the state.
Where it rests on the model's reading, see log entries 1, 25, 27 and 31. -/
def Obligations.UpdateEffects : Prop :=
  ∀ (r : Req) (off : BitVec 12) (v : W32) (n st at0 : Nat) (noOne : Bool) (s : State),
    let sel := updSel s r
    let e := lentry s n
    let y := lyrGet s n
    let others := fun (t : State) => ∀ k, k ≠ n → lyrGet t k = lyrGet s k
    let begun := fun (copy : Bool) (t : State) => t.updating = some (n, s.now) ∧ others t ∧ t.cores = s.cores ∧
      lyrGet t n = { y with
        state := 2, queue := if copy then y.queue else [], current := if copy then y.current else some st,
        rejected := rejectLayer e copy ≠ 0
        wrote := rejectLayer e copy = 0 ∧ (copy = true ∨ noOne = false ∧ writesCopies s e = true) }
    let keeps := fun (l : List (Nat × Nat)) (t : State) => ∀ x, Outside x l → memGet t.mem x = memGet s.mem x
    let nothing := fun (t : State) => Logged updPage 5 s t ∧ t.layers = s.layers ∧ t.mem = s.mem ∧ t.cores = s.cores
    let active := ∀ x ∈ s.layers, (lentry s x.1).rule ≠ 0
    let starts := s.updating = none ∧ nextLayer s = some n ∧ active ∧ layerWaits s n = false
    let last := if y.wrote then lastBytes e else []
    let waits := fun (t : State) => t.layers = s.layers ∧ t.updating = s.updating ∧ t.mem = s.mem ∧ t.cores = s.cores ∧
      t.objs = s.objs ∧ (s.power.meridian = 2 → t = s)
    ((lyrGet s sel).state = 0 →
      Runs (.copy r) s (fun t => t = { s with layers := t.layers } ∧
        lyrGet t sel = { lyrGet s sel with copying := true, state := 1 } ∧ ∀ k, k ≠ sel → lyrGet t k = lyrGet s k) ∧
      (off.toNat = 0x108 ∨ off.toNat = 0x144 → Runs (.layerEntryWrite r off v) s (fun t =>
        t = { s with regs := t.regs } ∧ rawWord t (entryBank sel) updPage off.toNat = v.toNat))) ∧
    ((lyrGet s sel).state ≠ 0 → Runs (.copy r) s nothing ∧
      (0x104 ≤ off.toNat → off.toNat ≤ 0x178 → off.toNat % 4 = 0 → Runs (.layerEntryWrite r off v) s nothing)) ∧
    (starts → y.copying = true →
      (rejectLayer e true = 0 → Runs .updateStart s (fun t => begun true t ∧ keeps (e.copyExtents.drop 1) t)) ∧
      (rejectLayer e true ≠ 0 → Runs .updateStart s (fun t => begun true t ∧ t.mem = s.mem ∧ Logged updPage 2 s t))) ∧
    (starts → y.copying = false → y.queue = [(st, noOne)] →
      (rejectLayer e false = 0 → noOne = false → Runs .updateStart s (fun t => begun false t ∧ keeps e.extents t)) ∧
      (rejectLayer e false = 0 → noOne = true → Runs .updateStart s (fun t =>
        begun false t ∧ t.mem = s.mem ∧ Logged updPage 1 s t)) ∧
      (rejectLayer e false ≠ 0 → Runs .updateStart s (fun t => begun false t ∧ t.mem = s.mem ∧ Logged updPage 2 s t))) ∧
    (active → s.updating.isSome = true ∨ nextLayer s = none → Runs .updateStart s (fun t => t = s)) ∧
    (active → s.updating = none → nextLayer s = some n → layerWaits s n = true → Runs .updateStart s waits) ∧
    (∀ x ∈ s.layers, mayBegin s x.1 x.2 = true → nextLayer s ≠ none) ∧ (readersDone s n = false → nextLayer s ≠ some n) ∧
    (s.layers.Pairwise (fun a b => a.1 < b.1) → nextLayer s = some n →
      ∀ x ∈ s.layers, mayBegin s x.1 x.2 = true → n ≤ x.1) ∧
    (s.updating = some (n, at0) → last.any (fun x => gnomonWaits s x.1 x.2) = true → Runs .updateEnd s waits) ∧
    (s.updating = some (n, at0) → last.any (fun x => gnomonWaits s x.1 x.2) = false → Runs .updateEnd s (fun t =>
      let o := bitsOf (lyrWord s n 0x178) 16 0
      t.updating = none ∧ others t ∧ t.mem = s.mem ∧ t.cores = s.cores ∧
      (lyrGet t n).state = (if y.queue.isEmpty then 0 else 1) ∧ (lyrGet t n).current = none ∧ (lyrGet t n).queue = y.queue ∧
      (∀ k, y.current = some k → lyrPair t n 0x160 = k % 2 ^ 64 ∧
        lyrPair t n 0x170 = (lyrPair s n 0x170 + lyrWord s n 0x16C) % 2 ^ 64) ∧
      (∀ x, objGet t x = objGet s x + (if x = o then 1 else 0)) ∧
      rawPair t 0 updPage 0x190 = min (rawPair s 0 updPage 0x190 + 1) (2 ^ 64 - 1) ∧
      rawPair t 0 updPage 0x198 = min (rawPair s 0 updPage 0x198 + (s.now - at0)) (2 ^ 64 - 1) ∧
      (∀ y ∈ last, ∀ u, firstUnalloc s y.1 y.2 = some u → bitOf (rawWord t 0 memPage 0x010) 3 = true)))

/-- What an update writes (R289 to R298): for every updated row and block that rests on no poison, masters and moments by the
procedure of R290 from what memory held before, stochastically rounded; an element whose master or moment is not finite keeps both;
a frozen or untouched row keeps its masters; under rule D a row's stamp is the step and the touched-row map is cleared; the copies
are blocks of the new masters. The tensors are allocated and do not overlap.
Where it rests on the model's reading, see log entries 25, 26, 110 and 111. -/
def Obligations.UpdateArithmetic : Prop :=
  ∀ (n st : Nat) (s : State),
    let e := lentry s n
    let y := lyrGet s n
    let c1 := fsub 23 one32 e.beta1
    let c2 := fsub 23 one32 e.beta2
    let fix := fsub 23 one32 (fmul 23 e.eta e.lambda)
    let bias := if st ≤ e.s0 + 1 then 0 else fsub 23 one32 (powOf e.beta2 (st - 1 - e.s0))
    let p := fun (k : Nat) => fmul 23 e.eta ((trustRows s e (constsOf e st)).1.getD k one32)
    let dec := fun (k : Nat) =>
      let tau := loadN s (e.stampAt k) 8
      powOf e.beta2 (if tau < st then st - tau - 1 else 0)
    let w := fun (k i : Nat) => fdec 7 (loadN s (e.masterAt k i) 2)
    let sign := fun (g : Int) => if 0 < g then one32 else if g < 0 then one32 + 2 ^ 31 else 0
    let m := fun (k i : Nat) =>
      let m0 := fenc 23 (momentVal s e k i)
      if e.rule = 4 then fmul 23 m0 (dec k) else m0
    let sg := fun (k i : Nat) => sign (gradVal s e k i)
    let q := fun (k i : Nat) =>
      let mh := if e.rule = 4 then (if bias = 0 then 0 else fdiv 23 (m k i) bias) else m k i
      fdec 23 (ffma 23 e.beta1 mh (fmul 23 c1 (sg k i)))
    let u := fun (k i : Nat) => if vlt (.fin false 0 0) (q k i) then 1 else if vlt (q k i) (.fin false 0 0) then -1 else (0 : Int)
    let still := fun (k i : Nat) => (w k i).isFin = false ∨ (momentVal s e k i).isFin = false
    let moment := fun (k i : Nat) => if (w k i).isFin && (momentVal s e k i).isFin then
      fdec 23 (ffma 23 e.beta2 (m k i) (fmul 23 c2 (sg k i))) else momentVal s e k i
    let block := fun (v : Nat → FVal) (lim : Nat) (b : Nat) =>
      toBlock 8 true none ((List.range 32).map (fun i => if 32 * b + i < lim then v (32 * b + i) else .fin false 0 0))
    let holds := fun (t : State) (at_ ex : Nat) (x : Block) =>
      memGetAll t.mem at_ 32 = packMants 8 x.ms ∧ memGet t.mem ex = BitVec.ofNat 8 x.e
    s.updating = none → nextLayer s = some n → (∀ x ∈ s.layers, (lentry s x.1).rule ≠ 0) → layerWaits s n = false →
    y.copying = false → y.queue = [(st, false)] → rejectLayer e false = 0 →
    e.extents.Pairwise (fun a b => a.1 + a.2 ≤ b.1 ∨ b.1 + b.2 ≤ a.1) →
    (∀ x ∈ e.extents, ∀ a, x.1 ≤ a → a < x.1 + x.2 → allocated s (pageOf a) = true) →
    Runs .updateStart s (fun t =>
      (∀ k i, k < e.k → i < e.n →
        let code := loadN t (e.masterAt k i) 2
        let kept := code = loadN s (e.masterAt k i) 2
        (activeRow s e k = false ∨ (blockPoison s e k (i / 32)).isSome = true ∨ still k i → kept) ∧
        (activeRow s e k = true → blockPoison s e k (i / 32) = none → ¬still k i →
          (∀ neg mm ee, masterExact (w k i) (fdec 23 fix) (fdec 23 (p k)) (u k i) = .fin neg mm ee →
            code = (srCode neg mm ee (drawOf e st k i)).1 % 2 ^ 16) ∧
          (∀ neg, masterExact (w k i) (fdec 23 fix) (fdec 23 (p k)) (u k i) = .inf neg → code = withSign 7 neg 0x7F7F))) ∧
      (∀ k b, k < e.k → b < e.np / 32 → activeRow s e k = true → blockPoison s e k b = none →
        holds t (e.momentAt k b) (e.momentExp k b) (block (moment k) e.n b)) ∧
      (∀ k b, k < e.k → b < e.np / 32 → e.rule ≠ 4 ∨ activeRow s e k = true →
        holds t (e.wtAt k b) (e.wtExp k b) (block (fun i => fdec 7 (loadN t (e.masterAt k i) 2)) e.n b)) ∧
      (∀ i j, i < e.n → j < e.kp / 32 → e.rule ≠ 4 ∨ (∃ k, k < e.k ∧ k / 32 = j ∧ activeRow s e k = true) →
        holds t (e.wrAt i j) (e.wrExp i j) (block (fun k => fdec 7 (loadN t (e.masterAt k i) 2)) e.k j)) ∧
      (e.rule = 4 → (∀ k, k < e.k → loadN t (e.stampAt k) 8 =
          if activeRow s e k then st % 2 ^ 64 else loadN s (e.stampAt k) 8) ∧
        ∀ i, i < (e.k + 7) / 8 → memGet t.mem (e.base 9 + i) = 0))

/-- The boundary (R283, R311, R323, R382, R388 to R393, R398): it falls when the module is ready and holds a credit or works alone,
or when the hold expires. The step's number advances, every slot that is not OFF is to derive its scale (each sends its PROPOSE as
it does), the ended step's ready records commit, its update of every layer is eligible, the new step's member deadlines start, and
the determinism record is written, with DETEVENT when it carries a class. Edges are credits, pay debts or are dropped; BND_STEP and
the mode are the page's to write. Where nothing is due the command leaves the state.
Where it rests on the model's reading, see log entries 1, 28, 40, 44 and 46. -/
def Obligations.BoundaryEffects : Prop :=
  ∀ (r : Req) (v : W32) (x : W64) (t0 : Nat) (s : State),
    let mode := fieldOf s 0 bndPage 0x100 1 0
    let hold := fieldOf s 0 bndPage 0x104 16 0
    let prepared := fun (at1 : Nat) (t : State) =>
      (∀ k, (calGet t k).due = ((calGet s k).pending.mode != 0) ∧
        ((calGet t k).due = true → (calGet t k).dueStep = t.bnd.step ∧ (calGet t k).writes = true)) ∧
      (∀ b rec, recordOf s b s.bnd.step = some rec → ∃ y, mfind t.red.records (parKey b s.bnd.step) = some y ∧
        y.step = rec.step ∧ y.state = (if rec.state = 3 then 4 else rec.state) ∧ y.included = rec.included ∧
        y.sum = rec.sum ∧ y.past = true ∧ y.ref = referenceOf s b s.bnd.step) ∧
      (∀ n ∈ s.layers.map (·.1), n < 16384 → (lentry s n).rule ≠ 0 →
        ∃ none', (lyrGet t n).queue = (lyrGet s n).queue ++ [(s.bnd.step, none')]) ∧
      (∀ b ∈ buckets s, bkMember s b = true → memberOf s b t.bnd.step = none → ∃ y, memberOf t b t.bnd.step = some y ∧
        y.deadline = some (at1 + memberWait s b) ∧ y.closed = false ∧ y.ready = 0 ∧ y.sent = false) ∧
      rawWord t 0 bndPage 0x138 = mget 0 t.bnd.charged s.bnd.step % 2 ^ 32 ∧
      (mget 0 t.bnd.charged s.bnd.step ≠ 0 → bitOf (rawWord t 0 bndPage 0x010) 3 = true)
    let fallen := fun (at1 credits debts : Nat) (t : State) =>
      t.bnd.step = (s.bnd.step + 1) % 2 ^ 64 ∧ t.bnd.begun = at1 ∧ t.bnd.credits = (if mode = 0 then 0 else credits) ∧
      t.bnd.debts = debts ∧ t.bnd.modeNow = mode ∧ t.bnd.outHigh = true ∧ t.bnd.early = false ∧
      t.bnd.earlyAt = none ∧ t.bnd.closing = false ∧
      rawPair t 0 bndPage 0x148 = min (rawPair s 0 bndPage 0x148 + 1) (2 ^ 64 - 1) ∧
      rawPair t 0 bndPage 0x130 = s.bnd.step % 2 ^ 64 ∧
      rawPair t 0 bndPage 0x110 = (rawPair s 0 bndPage 0x110 + rawWord s 0 bndPage 0x118) % 2 ^ 64 ∧
      (s.red.waiting = [] → prepared at1 t)
    let still := fun (t : State) => t = { s with bnd := t.bnd } ∧
      t.bnd = { s.bnd with kept := t.bnd.kept, readyAt := t.bnd.readyAt }
    let edge := fun (credits debts : Nat) (t : State) => t.bnd.credits = credits ∧ t.bnd.debts = debts ∧
      t.bnd.step = s.bnd.step ∧ t.mem = s.mem ∧ t.cores = s.cores
    let skipped := fun (t : State) => Logged bndPage 4 s t ∧ rawWord t 0 bndPage 0x100 = rawWord s 0 bndPage 0x100 ∧
      rawWord t 0 bndPage 0x104 = rawWord s 0 bndPage 0x104 ∧ t.bnd = s.bnd ∧ t.mem = s.mem
    (pageEn s bndPage = false → Runs (.boundaryEnable r) s (fun t => pageEn t bndPage = true ∧
      t.bnd.begun = s.now ∧ t.bnd.early = false ∧ t.bnd.earlyAt = none ∧ t.bnd.modeNow = mode ∧ t.bnd.step = s.bnd.step ∧
      t.bnd.credits = (if mode = 0 then 0 else s.bnd.credits) ∧ t.bnd.debts = s.bnd.debts ∧
      (∀ k, (calGet t k).due = ((calGet s k).pending.mode != 0)) ∧
      t.mem = s.mem ∧ t.cores = s.cores ∧ t.objs = s.objs) ∧
      Runs (.bndStepWrite r x) s (fun t => t = { s with bnd := { s.bnd with step := x.toNat }, cal := t.cal } ∧
        (x.toNat = s.bnd.step → t = s) ∧
        (x.toNat ≠ s.bnd.step → ∀ k, calGet t k = { calGet s k with obs := Obs.none }))) ∧
    (pageEn s bndPage = true → Runs (.boundaryEnable r) s (fun t => t = s) ∧
      Runs (.bndStepWrite r x) s (fun t => Logged 0 3 s t ∧ t.bnd = s.bnd ∧ t.mem = s.mem)) ∧
    (bitsOf v.toNat 1 0 ≠ 3 → Runs (.bndCtrlWrite r v) s (fun t => t = { s with regs := t.regs } ∧
      fieldOf t 0 bndPage 0x100 1 0 = bitsOf v.toNat 1 0)) ∧
    (bitsOf v.toNat 1 0 = 3 → Runs (.bndCtrlWrite r v) s skipped) ∧
    (bitsOf v.toNat 16 0 ≤ 100000 → Runs (.bndHoldWrite r v) s (fun t => t = { s with regs := t.regs } ∧
      fieldOf t 0 bndPage 0x104 16 0 = bitsOf v.toNat 16 0)) ∧
    (100000 < bitsOf v.toNat 16 0 → Runs (.bndHoldWrite r v) s skipped) ∧
    (moduleReady s = false → Runs .boundary s still) ∧
    (moduleReady s = true →
      (s.bnd.modeNow = 0 → Runs .boundary s (fallen s.now s.bnd.credits s.bnd.debts)) ∧
      (s.bnd.modeNow ≠ 0 → 0 < s.bnd.credits → Runs .boundary s (fallen s.now (s.bnd.credits - 1) s.bnd.debts)) ∧
      (s.bnd.modeNow ≠ 0 → s.bnd.credits = 0 →
        (0 < hold → Runs .boundary s still) ∧
        (hold = 0 → Runs .boundary s (fun t => fallen s.now 0 (s.bnd.debts + 1) t ∧ Logged bndPage 0 s t)) ∧
        (s.bnd.readyAt = some t0 → Runs .holdExpire s (fun t =>
          fallen (max s.now (t0 + usCycles hold)) 0 (s.bnd.debts + 1) t ∧ Logged bndPage 0 s t)))) ∧
    (s.bnd.modeNow = 0 → Runs .stepsyncEdge s still) ∧
    (s.power.modState < 2 → Runs .stepsyncEdge s (fun t => t = s)) ∧
    (s.bnd.modeNow ≠ 0 → 2 ≤ s.power.modState →
      (0 < s.bnd.debts → Runs .stepsyncEdge s (edge s.bnd.credits (s.bnd.debts - 1))) ∧
      (s.bnd.debts = 0 → 15 ≤ s.bnd.credits → Runs .stepsyncEdge s (fun t =>
        edge s.bnd.credits 0 t ∧ Logged bndPage 1 s t)) ∧
      (s.bnd.debts = 0 → s.bnd.credits < 15 → Runs .stepsyncEdge s (fun t => edge (s.bnd.credits + 1) 0 t ∧
        (s.bnd.modeNow = 2 → pageEn s bndPage = true → moduleReady s = false → t.bnd.early = true ∧
          (s.bnd.early = false → Logged bndPage 2 s t))))) ∧
    (s.bnd.outHigh = true → Runs .stepsyncOutEnd s (fun t =>
      t = { s with now := max s.now (s.bnd.begun + 100), bnd := { s.bnd with outHigh := false } }))

/-! ### Ickor links and routers -/

/-- Fabric forms agree with their readers (R313, R336, R338, R365): a flit's fields, payload and CRC, a transaction header
and a reduction message (a CONTRIB with or without a map, a RETRACT with its two lists) read back as they were formed, at every
value the fields allow. Where it rests on the model's reading (the lists of a RETRACT), see log entry 92.
The control core's instruction words (R162, R163, R220): the word of each operation, at every value of its fields, spells that
operation, and a word of a reserved opcode or fn spells none. -/
def Obligations.FormsAgree : Prop :=
  ((∀ (h : FlitHdr) (pl : List Byte), h.ftype < 16 → h.cls < 2 → h.vc < 8 → h.seq < 2048 → h.ack < 2048 → h.crvc < 8 →
     h.crcls < 2 → h.crcnt < 128 → h.dest < 16384 → h.src < 16384 → h.flow < 64 → h.valid < 256 → h.hops < 64 →
     pl.length ≤ 240 →
       flitHdr (mkFlit h pl) = h ∧ flitReserved (mkFlit h pl) = 0 ∧ flitCrcOk (mkFlit h pl) = true ∧
       (mkFlit h pl).length = 256 ∧ flitPayload (mkFlit h pl) = pl ++ List.replicate (240 - pl.length) 0) ∧
   (∀ (h : TxnHdr) (d : List Byte), h.ttype < 16 → h.status < 16 → h.tag < 2 ^ 17 → h.addr < 2 ^ 44 → h.lenm1 < 2 ^ 12 →
     h.aop < 16 → hdrOf (hdrBytes h ++ d) = h ∧ (hdrBytes h).length = 16) ∧
   (∀ (r : RedMsg), r.step < 2 ^ 64 → r.type < 16 → r.chan < 64 → r.bucket < 4096 → r.src < 16384 →
     r.home < 16384 → r.cause < 16 → r.scale < 256 → r.epoch < 2 ^ 32 → r.count < 32768 → -1024 ≤ r.tmax → r.tmax < 1024 →
     (∀ ms, r.map = some ms → ms.Pairwise (· < ·) ∧ ∀ m ∈ ms, m < 16384) →
     (if r.type = 2 then r.wide = false ∧ r.wrong.length = r.elems.length else r.wrong = [] ∧ r.elems.length < 2 ^ 25) →
     (∀ x ∈ r.wrong, -2 ^ 15 ≤ x ∧ x < 2 ^ 15) →
     (∀ x ∈ r.elems, if r.wide then -2 ^ 31 ≤ x ∧ x < 2 ^ 31 else -2 ^ 15 ≤ x ∧ x < 2 ^ 15) → redOf (redBytes r) = r)) ∧
  (∀ (c : CoreId) (d a b : BitVec 6) (i : BitVec 12) (j : BitVec 18) (q : Queue) (f : Bool) (w : BitVec 32),
     let word := fun (n : Nat) => decodeWord c (BitVec.ofNat 32 n)
     let alu := fun (fn : Nat) => word (wordR 0x10 d.toNat a.toNat b.toNat fn)
     let sop := fun (fn : Nat) => word (wordR 0x58 d.toNat a.toNat b.toNat fn)
     let short := fun (op : Nat) => word (wordI op d.toNat a.toNat i.toNat)
     let long := fun (op : Nat) => word (wordJ op d.toNat j.toNat)
     let queue := fun (op : Nat) => word (wordQ op d.toNat a.toNat b.toNat q f)
     (List.range 21).map alu = [.aluAdd c d a b, .aluSub c d a b, .aluAnd c d a b, .aluOr c d a b, .aluXor c d a b,
       .aluShl c d a b, .aluShr c d a b, .aluSar c d a b, .aluSlt c d a b, .aluSltu c d a b, .aluMul c d a b,
       .aluMulhu c d a b, .aluMulh c d a b, .aluDiv c d a b, .aluDivu c d a b, .aluRem c d a b, .aluRemu c d a b,
       .aluMin c d a b, .aluMax c d a b, .aluMinu c d a b, .aluMaxu c d a b] ∧
     (List.range 3).map sop = [.sopRead c d a b, .sopAdd c d a b, .sopSet c d a b] ∧
     [0x11, 0x12, 0x13, 0x14, 0x15, 0x16, 0x17, 0x18].map short = [.addi c d a i, .andi c d a i, .ori c d a i, .xori c d a i,
       .shli c d a i, .shri c d a i, .sari c d a i, .slti c d a i] ∧
     [0x30, 0x31, 0x32, 0x33, 0x34, 0x35, 0x36, 0x38, 0x39, 0x3A, 0x3B].map short = [.lb c d a i, .lbu c d a i, .lh c d a i,
       .lhu c d a i, .lw c d a i, .lwu c d a i, .ld c d a i, .sb c d a i, .sh c d a i, .sw c d a i, .sd c d a i] ∧
     [0x3C, 0x3D, 0x3E, 0x3F].map short = [.rdreg c d a i, .wrreg c d a i, .rdreg64 c d a i, .wrreg64 c d a i] ∧
     [0x40, 0x41, 0x42, 0x43, 0x44, 0x45, 0x49].map short = [.beq c d a i, .bne c d a i, .blt c d a i, .bge c d a i, .bltu c d a i,
       .bgeu c d a i, .jalr c d a i] ∧
     [0x20, 0x21, 0x48, 0x60].map long = [.li c d j, .lus c d j, .jal c d j, .waitcy c j] ∧
     [0x50, 0x51, 0x52].map queue = [.push c q f d a b, .pushm c q f d a b, .qdepth c q d] ∧
     word 0x01 = .nop c ∧ word (wordJ 0x61 d.toNat 0) = .rdcyc c d ∧ word 0x70 = .tend c ∧
     (reservedWord w.toNat = true → decodeWord c w = .reservedOpcode c w))

/-- A port's way up and down (R333, R335, R353, R417): each state event moves a port in its own state only; retraining keeps
the replay buffer, DOWN empties it; TRAINFAIL rests the port.
Where it rests on the model's reading, see log entry 53; a clause where nothing changes because the occasion is absent rests on
log entry 1. -/
def Obligations.PortStates : Prop :=
  ∀ (r : Req) (p : PortId) (txeq : BitVec 4) (order : BitVec 8) (pol : BitVec 4) (t0 : Nat) (s : State),
    let k := portOf s p
    let ctrl := rawWord s 0 (prtPage p) (prtOff p 0)
    let others := fun (t : State) => ∀ q, q ≠ p → portOf t q = portOf s q
    let may := pageEn s ickPage = true ∧ s.power.meridian = 2 ∧ (s.vesper.cfgOk && recordNat s 62 1 == 0) = false ∧
      withdrawn s 3 p.val = false ∧ s.rel.out = false
    let moved := fun (n : Nat) (t : State) => t = { s with ick := t.ick } ∧ others t ∧ portOf t p = { k with state := n }
    let again := fun (t : State) => (portOf t p).state = 1 ∧
      (portOf t p).leftDown = (if k.state = 5 then some s.now else k.leftDown) ∧ (portOf t p).replay = k.replay ∧
      t.now = s.now ∧ t.mem = s.mem ∧ t.cores = s.cores
    (k.state = 0 → k.rest = false → may → Runs (.portEnable r p true txeq) s (fun t =>
      (portOf t p).state = 1 ∧ (portOf t p).leftDown = some s.now ∧ others t ∧ t = { s with regs := t.regs, ick := t.ick } ∧
      fieldOf t 0 (prtPage p) (prtOff p 0) 0 0 = 1 ∧ fieldOf t 0 (prtPage p) (prtOff p 0) 7 4 = txeq.toNat)) ∧
    (k.state ≠ 0 → reaches r s = true → Runs (.portEnable r p false txeq) s (fun t =>
      (portOf t p).state = 0 ∧ (portOf t p).replay = [] ∧
      (portOf t p).credits = [] ∧ t.mem = s.mem ∧ t.cores = s.cores ∧ (k.wasUp = true → Logged (prtPage p) 0 s t))) ∧
    (k.state ≠ 0 → bitOf ctrl 0 = true → reaches r s = true → Runs (.retrain r p) s again) ∧
    (k.state = 5 → Runs (.fecLockLost p) s again) ∧
    (k.state ≠ 5 → Runs (.fecLockLost p) s (fun t => t = s)) ∧
    Runs (.signalDetect p) s (fun t => if k.state = 1 then moved 2 t else t = s) ∧
    Runs (.adaptDone p) s (fun t => if k.state = 2 then moved 3 t else t = s) ∧
    (k.state = 3 → Runs (.alignLock p order pol) s (fun t => (portOf t p).state = 4 ∧ others t ∧
      t = { s with regs := t.regs, ick := t.ick } ∧
      rawWord t 0 (prtPage p) (prtOff p 8) = order.toNat + pol.toNat * 256)) ∧
    (k.state ≠ 3 → Runs (.alignLock p order pol) s (fun t => t = s)) ∧
    (k.leftDown = some t0 → k.state ≠ 0 → k.state ≠ 5 → Runs (.trainfail p) s (fun t =>
      let at1 := max s.now (t0 + msCycles (fieldOf s 0 ickPage 0x120 15 0))
      t.now = at1 ∧ (portOf t p).state = 0 ∧ (portOf t p).rest = true ∧
      (portOf t p).leftDown = some (at1 + msCycles 10) ∧ Logged (prtPage p) 2 s t ∧ t.mem = s.mem ∧ t.cores = s.cores)) ∧
    (k.state = 0 → k.rest = true → k.leftDown = some t0 → Runs (.trainRestEnd p) s (fun t =>
      t.now = max s.now t0 ∧ (portOf t p).rest = false ∧ (portOf t p).state = (if mayTrain s p then 1 else 0) ∧ others t))

/-- Flits received (R332, R334, R337 to R341, R357): a TRAIN flit tells the neighbour's identifier, port and credits; a DATA flit in
sequence is taken, and in routers that hold nothing else it is delivered, buffered at its port's router or at the end of the
internal link to it, or discarded; an IDLE flit's ACK frees and its credits return; a NAK resends and returns none; a bad or
reserved flit is counted, ends a run of TRAIN flits and is never acted on; corrected symbols and lost codewords are counted.
Where it rests on the model's reading, see log entries 52, 56, 104 and 105; a clause where nothing changes because the occasion
is absent rests on log entry 1. -/
def Obligations.FlitEffects : Prop :=
  ∀ (p : PortId) (x : Flit) (s : State),
    let k := portOf s p
    let h := flitHdr x.bytes
    let pl := flitPayload x.bytes
    let good := x.fecBad = false ∧ x.fecUnc = 0 ∧ flitCrcOk x.bytes = true ∧ flitReserved x.bytes = 0
    let key := bufKey p.val h.vc h.cls
    let idle := s.ick.buffers = [] ∧ s.ick.feed = [] ∧ s.ick.routed = [] ∧ s.ick.chosen = [] ∧ s.ick.granted = [] ∧
      s.ick.parked = []
    let quiet := fun (t : State) => t = { s with ick := t.ick, regs := t.regs } ∧
      WordsKept (prtPage p) [prtOff p 0x10, prtOff p 0x14] s t
    let every := [Instr.trainFlit p x, .dataFlit p x, .idleFlit p x, .nakFlit p x, .reservedFlit p x]
    let calm := fun (t : State) => t.mem = s.mem ∧ t.cores = s.cores ∧ t.now = s.now
    let count := fun (o n : Nat) (t : State) =>
      rawPair t 0 (prtPage p) (prtOff p o) = min (rawPair s 0 (prtPage p) (prtOff p o) + n) (2 ^ 64 - 1)
    let bump := fun (o : Nat) (t : State) => count o 1 t
    let returns := fun (t : State) => h.crv = true → mget 0 (portOf t p).credits (h.crvc * 2 + h.crcls) =
      mget 0 k.credits (h.crvc * 2 + h.crcls) + h.crcnt
    let peer := natOfBytes (pl.take 2) % 16384
    let dup := idValid s && peer == moduleId s
    (good → h.ftype = 3 → k.state = 4 → Runs (.trainFlit p x) s (fun t =>
      let up := idValid s = true ∧ 15 ≤ k.goodTrains ∧ 16 ≤ k.sentTrains ∧ natOfBytes ((pl.drop 3).take 1) = 1 ∧ dup = false
      fieldOf t 0 (prtPage p) (prtOff p 4) 16 3 = peer ∧
      fieldOf t 0 (prtPage p) (prtOff p 4) 21 17 = natOfBytes ((pl.drop 2).take 1) % 32 ∧
      fieldOf t 0 (prtPage p) (prtOff p 4) 22 22 = 1 ∧ (portOf t p).goodTrains = k.goodTrains + 1 ∧ calm t ∧
      (portOf t p).peerExpects = natOfBytes ((pl.drop 4).take 2) % 2048 ∧
      (portOf t p).peerCredits = ((pl.drop 8).take 16).map (fun y => y.toNat) ∧
      (up → k.replay = [] → ∀ j, j < 16 → mget 0 (portOf t p).credits j = (pl.getD (8 + j) 0).toNat) ∧
      (portOf t p).state = (if up then 5 else 4) ∧ (up → Logged (prtPage p) 1 s t) ∧
      (dup = true → k.dup = false → Logged (prtPage p) 6 s t))) ∧
    (good → h.ftype = 1 → k.state = 5 → h.seq = k.rxSeq → Runs (.dataFlit p x) s (fun t =>
      (portOf t p).rxSeq = (k.rxSeq + 1) % 2048 ∧ (portOf t p).ackDue = true ∧ (portOf t p).nakSent = false ∧ calm t ∧
      bump 0x38 t ∧ returns t ∧
      (idle → h.head = true →
        (h.dest = moduleId s → h.tail = true → h.valid ≠ 0 →
          t.ick.inbox = s.ick.inbox ++ [msgOf [x.bytes]] ∧ t.ick.buffers = []) ∧
        (h.dest ≠ moduleId s → t.ick.inbox = s.ick.inbox ∧
          (∀ c, discardCause s key h = c → 0 < c → t.ick.buffers = [] ∧ Logged ickPage c s t) ∧
          (∀ q, discardCause s key h = 0 → routePort s h.src h.dest h.vc h.flow = some q →
            (isHeld s h = true ∨ q.val / 6 = p.val / 6 → t.ick.buffers = [(key, [x.bytes])]) ∧
            (isHeld s h = false → q.val / 6 ≠ p.val / 6 →
              t.ick.buffers = [(bufKey (linkOf (p.val / 6) (q.val / 6)) h.vc h.cls, [x.bytes])])))))) ∧
    (good → h.ftype = 1 → k.state = 5 → h.seq ≠ k.rxSeq → Runs (.dataFlit p x) s (fun t =>
      (portOf t p).rxSeq = k.rxSeq ∧ (portOf t p).nakSent = true ∧ (k.nakSent = false → (portOf t p).nakDue = true) ∧
      quiet t ∧ t.ick.buffers = s.ick.buffers ∧ t.ick.inbox = s.ick.inbox ∧ returns t)) ∧
    (good → h.ftype = 0 → k.state = 5 → Runs (.idleFlit p x) s (fun t => quiet t ∧ returns t ∧
      (portOf t p).rxSeq = k.rxSeq ∧ (h.ackv = false → (portOf t p).replay = k.replay) ∧
      (∀ a f b, h.ackv = true → k.replay = a ++ f :: b → (flitHdr f).seq = h.ack → (∀ g ∈ a, (flitHdr g).seq ≠ h.ack) →
        (portOf t p).replay = b))) ∧
    (good → h.ftype = 0 → k.state = 4 → Runs (.idleFlit p x) s (fun t => quiet t ∧
      portOf t p = { k with goodTrains := 0 } ∧ ∀ q, q ≠ p → portOf t q = portOf s q)) ∧
    (good → h.ftype = 2 → k.state = 5 → Runs (.nakFlit p x) s (fun t =>
      bump 0x28 t ∧ calm t ∧ (portOf t p).rxSeq = k.rxSeq ∧ (portOf t p).credits = k.credits ∧
      (∀ a f b, k.replay = a ++ f :: b → (flitHdr f).seq = h.ack → (∀ g ∈ a, (flitHdr g).seq ≠ h.ack) →
        (portOf t p).replay = b ∧ (portOf t p).resend = b ∧ (portOf t p).state = 5) ∧
      ((∀ g ∈ k.replay, (flitHdr g).seq ≠ h.ack) → (portOf t p).replay = k.replay ∧
        (k.lastNak = some h.ack → 255 ≤ k.nakRun → Logged (prtPage p) 3 s t ∧ (portOf t p).state = 1) ∧
        (k.lastNak ≠ some h.ack → (portOf t p).state = 5 ∧ (portOf t p).resend = k.replay)))) ∧
    (∀ cmd ∈ every, k.state ≠ 4 → k.state ≠ 5 → Runs cmd s (fun t => t = s)) ∧
    (∀ cmd ∈ every, k.state = 4 ∨ k.state = 5 → Runs cmd s (fun t => count 0x10 x.fecCorr t ∧ count 0x18 x.fecUnc t ∧
      (0 < x.fecUnc → bitOf (rawWord t 0 (prtPage p) 0x010) 4 = true))) ∧
    (∀ cmd ∈ every, k.state = 4 ∨ k.state = 5 → ¬ good ∨ 4 ≤ h.ftype → Runs cmd s (fun t =>
        bump 0x20 t ∧ calm t ∧ (portOf t p).goodTrains = 0 ∧ (portOf t p).rxSeq = k.rxSeq ∧ (portOf t p).state = k.state ∧
        t.ick.inbox = s.ick.inbox ∧ t.ick.buffers = s.ick.buffers ∧
        (x.fecUnc = 1 → Logged (prtPage p) 4 s t) ∧
        (k.state = 5 → k.nakSent = false → (portOf t p).nakDue = true) ∧
        (x.fecBad = false → x.fecUnc = 0 → flitCrcOk x.bytes = true → Logged (prtPage p) 5 s t)))

/-- Sending and routing (R328, R332, R339, R341, R344 to R349, R351): an output sends one flit, by its order of choice, a new
DATA flit being the first of the input chosen, numbered, in its class and with its hop counted; an
injected message enters, by routers that hold nothing else, the local port's buffer at the router of its port, is delivered
here, or is refused with INJREF; a hold ends; route entries and the identifier are written.
Where it rests on the model's reading, see log entries 52, 53, 54, 55, 104 and 105; a clause where nothing changes because the
occasion is absent rests on log entry 1. -/
def Obligations.SendingEffects : Prop :=
  ∀ (r : Req) (p : PortId) (m : Msg) (f : FlitBytes) (src dest vc flow : Nat) (v : W32) (s : State),
    let k := portOf s p
    let sends := fun (t : State) (P : FlitHdr → List Byte → Prop) => ∃ h pl, t.out = s.out ++ [.flit p (mkFlit h pl)] ∧ P h pl
    let calm := fun (t : State) => t.mem = s.mem ∧ t.cores = s.cores
    let acks := fun (h : FlitHdr) => h.ackv = true ∧ h.ack = (k.rxSeq + 2047) % 2048
    let idle := s.ick.buffers = [] ∧ s.ick.feed = [] ∧ s.ick.routed = [] ∧ s.ick.chosen = [] ∧ s.ick.granted = []
    let sel := bitsOf (ownWord s r ickPage 0x114) 13 0
    (k.state = 4 → Runs (.flitSend p) s (fun t => calm t ∧ (portOf t p).sentTrains = k.sentTrains + 1 ∧
      sends t (fun h pl => h.ftype = 3 ∧ pl.take 2 = bytesOfNat 2 (moduleId s) ∧
        (pl.drop 4).take 2 = bytesOfNat 2 k.rxSeq ∧ pl.length = 24))) ∧
    (k.state = 5 →
      (k.nakDue = true → Runs (.flitSend p) s (fun t => calm t ∧ (portOf t p).nakDue = false ∧
        sends t (fun h _ => h.ftype = 2 ∧ acks h ∧ h.crv = false))) ∧
      (∀ l, k.nakDue = false → k.resend = f :: l → Runs (.flitSend p) s (fun t => calm t ∧ (portOf t p).resend = l ∧
        (portOf t p).replay = k.replay ∧
        sends t (fun h pl => acks h ∧ h.ftype = (flitHdr f).ftype ∧ h.seq = (flitHdr f).seq ∧ pl = flitPayload f))) ∧
      (k.nakDue = false → k.resend = [] → innerMove s = none → chooseFlit s p.val = none → Runs (.flitSend p) s (fun t => calm t ∧
        (portOf t p).replay = k.replay ∧ sends t (fun h _ => h.ftype = 0 ∧ acks h))) ∧
      (∀ vc ic turn g l w, k.nakDue = false → k.resend = [] → innerMove s = none → k.replay.length < 1024 →
        chooseFlit s p.val = some (vc, ic, turn) → mget [] s.ick.buffers (bufKey (ic / 2) vc (ic % 2)) = g :: l →
        nextRoute s (bufKey (ic / 2) vc (ic % 2)) g = some w → g.length = 256 →
        Runs (.flitSend p) s (fun t => calm t ∧ (portOf t p).txSeq = (k.txSeq + 1) % 2048 ∧
          (∃ x, (portOf t p).replay = k.replay ++ [x] ∧ (flitHdr x).seq = k.txSeq % 2048 ∧ flitPayload x = flitPayload g) ∧
          sends t (fun h pl => acks h ∧ h.seq = k.txSeq % 2048 ∧ h.cls = w.cls % 2 ∧ h.hops = ((flitHdr g).hops + 1) % 64 ∧
            h.ftype = (flitHdr g).ftype ∧ h.vc = (flitHdr g).vc ∧ h.dest = (flitHdr g).dest ∧ h.src = (flitHdr g).src ∧
            h.flow = (flitHdr g).flow ∧ h.valid = (flitHdr g).valid ∧ h.head = (flitHdr g).head ∧
            h.tail = (flitHdr g).tail ∧ h.poison = (flitHdr g).poison ∧ pl = flitPayload g) ∧
          rawPair t 0 (prtPage p) (prtOff p 0x30) = min (rawPair s 0 (prtPage p) (prtOff p 0x30) + 1) (2 ^ 64 - 1)))) ∧
    (k.state ≠ 4 → k.state ≠ 5 → Runs (.flitSend p) s (fun t => t = s)) ∧
    (mayInject s m = true → Runs (.messageInject m) s (fun t =>
      t.ick.outbox = s.ick.outbox.erase m ∧ calm t ∧
      (∀ code, s.txn.leaving = [(code, m)] → t.txn.leaving = [] ∧ rawWord t (1 + code) txnPage 0x12C = 0) ∧
      (idValid s = false → Logged ickPage 0 s t ∧ t.ick.inbox = s.ick.inbox ∧ t.ick.buffers = s.ick.buffers) ∧
      (idValid s = true → ¬ (m.vc = 7 ∧ 1 < flitCount m) →
        (m.dest = moduleId s → t.ick.inbox = s.ick.inbox ++ [m] ∧ t.ick.buffers = s.ick.buffers) ∧
        (m.dest ≠ moduleId s → routePort s m.src m.dest m.vc m.flow = none →
          Logged ickPage 0 s t ∧ t.ick.buffers = s.ick.buffers ∧ t.ick.feed = s.ick.feed) ∧
        (∀ q, m.dest ≠ moduleId s → routePort s m.src m.dest m.vc m.flow = some q → idle →
          m.src < 16384 → m.dest < 16384 → m.vc < 8 → m.flow < 64 → 0 < fieldOf s 0 ickPage 0x104 5 0 →
          t.ick.ports = s.ick.ports ∧
          t.ick.buffers = [(bufKey (24 + q.val / 6) m.vc 0, (flitsOf m).take (bufDepth m.vc))] ∧
          mget [] t.ick.feed (q.val / 6 * 8 + m.vc) = (flitsOf m).drop (bufDepth m.vc))))) ∧
    (mayInject s m = false → Runs (.messageInject m) s (fun t => t = s)) ∧
    (∀ h, flowHold s src dest vc flow = some h →
      (pickPort h.new src dest vc flow = some p → Runs (.flowholdExpire p src dest vc flow) s (fun t =>
        t.now = max s.now h.till ∧ t.ick.holds = s.ick.holds.filter (fun y => decide (h.till < y.till)) ∧ calm t)) ∧
      (pickPort h.new src dest vc flow ≠ some p → Runs (.flowholdExpire p src dest vc flow) s (fun t => t = s))) ∧
    (flowHold s src dest vc flow = none → Runs (.flowholdExpire p src dest vc flow) s (fun t => t = s)) ∧
    (reaches r s = true → Runs (.ickRtentryWrite r v) s (fun t => calm t ∧
      mget 0 t.ick.routes sel = BitVec.ofNat 32 (v.toNat % 2 ^ 26) ∧
      (∀ d, d ≠ sel → mget 0 t.ick.routes d = mget 0 s.ick.routes d) ∧ (portOf t p).state = k.state ∧
      (∀ d, d ≠ moduleId s → mget 0 t.ick.inForce d = routeMask t d) ∧
      ((∃ d, d ≠ moduleId s ∧ routeMask t d ≠ mget 0 s.ick.inForce d) → Logged ickPage 3 s t) ∧
      ((∀ d, d ≠ moduleId s → routeMask t d = mget 0 s.ick.inForce d) →
        rawWord t 0 ickPage 0x02C = rawWord s 0 ickPage 0x02C))) ∧
    (reaches r s = true → pageEn s ickPage = true → Runs (.ickModidWrite r v) s (fun t => Logged 0 3 s t ∧ calm t ∧
      t.ick = s.ick ∧ rawWord t 0 ickPage 0x100 = rawWord s 0 ickPage 0x100)) ∧
    (reaches r s = true → pageEn s ickPage = false → Runs (.ickModidWrite r v) s (fun t => t = { s with regs := t.regs } ∧
      fieldOf t 0 ickPage 0x100 13 0 = bitsOf v.toNat 13 0 ∧ fieldOf t 0 ickPage 0x100 31 31 = bitsOf v.toNat 31 31))

/-! ### Transactions -/

/-- What a target performs (R359, R362, R364 to R369, R373): a READ answers its bytes, a WRITE stores its bytes, an ATOMIC
answers the old value and stores the operation's result, each to the requester with its status, in a message of its own or
joined to one that is ready; an access to a tile that is not ready waits; one that is not to be performed changes no memory; a
SOOP acts on its object; a PNOTICE poisons its range; a reserved form is XBADMSG. A request of more than 18 flits is answered
ALIGN, and a SOOP of such a length does nothing (R366); bytes of poisoned flits are marked where they are stored, with POISONRX
(R372, R381).
Where it rests on the model's reading, see log entries 43, 83, 84 and 97 (and 72 for a core that is gated). -/
def Obligations.TargetEffects : Prop :=
  ∀ (m : Msg) (h : TxnHdr) (d : List Byte) (s : State),
    let n := h.lenm1 + 1
    let st := targetStatus s h.addr n
    let has := fun (ty : Nat) => Arrives m 1 s ∧ m.body = .txn h d ∧ h.ttype = ty
    let is := fun (ty : Nat) => has ty ∧ flitCount m ≤ 18
    let answers := fun (vc : Nat) (b : Body) (t : State) => Sent (arrived m s) t (fun y =>
      y.dest = m.src ∧ y.vc = vc ∧ y.flow = m.flow ∧ y.kind = 1 ∧ y.body = b)
    let u := arrived m s
    let mine := s.mig.waiters.all (fun w => !sameFlow w.what (.msg m)) = true
    let clear := fun (isW : Bool) (n : Nat) => mine ∧ asleepAt u h.addr = none ∧ settleRange h.addr n u = u ∧ unready u isW h.addr n = [] ∧
      waitsBehind u (waitTiles (some (isW, h.addr, n))) = false
    let waits := fun (t : State) => t.mem = s.mem ∧ t.ick = u.ick ∧ t.cores = s.cores ∧ ∃ w ∈ t.mig.waiters, w.what = .msg m
    let sub := fun (ty vc st : Nat) (data : List Byte) (t : State) =>
      (joinable u m ty vc (16 + data.length) = none → answers vc (.reply ty [⟨h.tag, st, h.lenm1, data⟩]) t) ∧
      ∀ x, joinable u m ty vc (16 + data.length) = some x → ∃ z, z.dest = x.dest ∧ z.vc = x.vc ∧ z.flow = x.flow ∧
        (∀ rs, x.body = .reply ty rs → z.body = .reply ty (rs ++ [⟨h.tag, st, h.lenm1, data⟩])) ∧
        t.ick.outbox = u.ick.outbox.map (fun y => if y = x then z else y)
    let same := fun (t : State) => t.mem = s.mem ∧ t.cores = s.cores
    let stores := fun (bs : List Byte) (t : State) => t.cores = s.cores ∧ memGetAll t.mem h.addr bs.length = bs ∧
      ∀ x, x < h.addr ∨ h.addr + bs.length ≤ x → memGet t.mem x = memGet s.mem x
    let x := BitVec.ofNat 64 (natOfBytes (d.take 8))
    let cmp := BitVec.ofNat 64 (natOfBytes ((d.drop 8).take 8))
    let old := BitVec.ofNat 64 (loadN s h.addr 8)
    let atomic := fun (aop : Nat) => if aop = 1 then Instr.fadd m else if aop = 2 then .swap m else if aop = 3 then .cas m
      else if aop = 4 then .umax m else .umin m
    let result : W64 := match h.aop with
      | 1 => old + x
      | 2 => x
      | 3 => if old = cmp then x else old
      | 4 => if old.toNat ≤ x.toNat then x else old
      | _ => if x.toNat ≤ old.toNat then x else old
    let result' := fun (st : Nat) (v : W64) => Body.txn ⟨6, st, h.tag, 0, h.lenm1, 0⟩ (bytesOfNat 8 v.toNat)
    (is 1 → n ≤ 256 → crosses4k h.addr n = false → mine →
      (st = 0 → unready (settleRange h.addr n u) false h.addr n ≠ [] → Runs (.read m) s waits) ∧
      (st = 0 → clear false n → Runs (.read m) s (fun t => same t ∧ sub 4 1 0 (memGetAll s.mem h.addr n) t)) ∧
      (st ≠ 0 → Runs (.read m) s (fun t => same t ∧ sub 4 1 st (List.replicate n 0) t ∧
        Logged memPage (if st = 2 then 4 else 3) s t))) ∧
    (is 1 → 256 < n ∨ crosses4k h.addr n = true → mine → Runs (.read m) s (fun t => same t ∧ ∃ bs, bs.length = n ∧ sub 4 1 3 bs t)) ∧
    (is 2 → crosses4k h.addr n = false → d.length = n → mine →
      (st = 0 → unready (settleRange h.addr n u) true h.addr n ≠ [] → Runs (.write m) s waits) ∧
      (st = 0 → clear true n → m.bad = [] → Runs (.write m) s (fun t => stores d t ∧ sub 5 3 0 [] t)) ∧
      (st ≠ 0 → Runs (.write m) s (fun t => same t ∧ sub 5 3 st [] t ∧ Logged memPage (if st = 2 then 4 else 3) s t))) ∧
    (∀ k, is 2 → crosses4k h.addr n = false → d.length = n → mine → st = 0 → clear true n → k < n →
      m.bad.contains ((24 + k) / 240) = true → Runs (.write m) s (fun t =>
        stores d t ∧ sub 5 3 0 [] t ∧ Logged txnPage 6 s t ∧ poisoned t (h.addr + k) 1 = true)) ∧
    (is 2 → crosses4k h.addr n = true ∨ d.length ≠ n → mine → Runs (.write m) s (fun t => same t ∧ sub 5 3 3 [] t)) ∧
    (18 < flitCount m → mine →
      (has 1 → Runs (.read m) s (fun t => same t ∧ ∃ bs, bs.length = n ∧ sub 4 1 3 bs t)) ∧
      (has 2 → Runs (.write m) s (fun t => same t ∧ sub 5 3 3 [] t)) ∧
      (has 3 → 1 ≤ h.aop → h.aop ≤ 5 → Runs (atomic h.aop) s (fun t => same t ∧ answers 1 (result' 3 0) t)) ∧
      (has 7 → h.aop = 0 → Runs (.soopAdd m) s (fun t => t = arrived m s)) ∧
      (has 7 → h.aop = 1 → Runs (.soopSet m) s (fun t => t = arrived m s))) ∧
    (is 3 → 1 ≤ h.aop → h.aop ≤ 5 → mine →
      (h.addr % 8 = 0 → targetStatus s h.addr 8 = 0 → clear true 8 → Runs (atomic h.aop) s (fun t =>
        stores (bytesOfNat 8 result.toNat) t ∧ answers 1 (result' 0 old) t)) ∧
      (h.addr % 8 = 0 → targetStatus s h.addr 8 ≠ 0 → Runs (atomic h.aop) s (fun t =>
        same t ∧ answers 1 (result' (targetStatus s h.addr 8) 0) t ∧
        Logged memPage (if targetStatus s h.addr 8 = 2 then 4 else 3) s t)) ∧
      (h.addr % 8 = 0 → targetStatus s h.addr 8 = 0 → clear true 8 → d ≠ [] → m.bad.contains 0 = true →
        Runs (atomic h.aop) s (fun t =>
          stores (bytesOfNat 8 result.toNat) t ∧ Logged txnPage 6 s t ∧ poisoned t h.addr 8 = true)) ∧
      (h.addr % 8 ≠ 0 → Runs (atomic h.aop) s (fun t => same t ∧ answers 1 (result' 3 0) t))) ∧
    (is 3 → h.aop = 0 ∨ 5 < h.aop → mine → Runs (.fadd m) s (fun t => same t ∧ answers 1 (result' 3 0) t)) ∧
    (is 7 → h.aop = 0 → Runs (.soopAdd m) s (fun t => same t ∧ t.ick = (arrived m s).ick ∧
      ∀ o, objGet t o = objGet s o + (if o = h.addr % 2 ^ 17 then x else 0))) ∧
    (is 7 → h.aop = 1 → Runs (.soopSet m) s (fun t => same t ∧ t.ick = (arrived m s).ick ∧
      ∀ o, objGet t o = if o = h.addr % 2 ^ 17 then x else objGet s o)) ∧
    (∀ len, is 8 → natOfBytes (d.take 8) = len → 0 < len → h.addr % 64 = 0 → len % 64 = 0 → fabricReach s h.addr = true →
      firstUnreached s h.addr len = none → targetStatus s h.addr len = 0 → Runs (.pnotice m) s (fun t =>
        same t ∧ sub 5 3 0 [] t ∧ Logged txnPage 6 s t ∧
        (∀ y, h.addr ≤ y → y < h.addr + len → poisoned t y 1 = true) ∧ ∀ l ∈ s.poison, l ∈ t.poison)) ∧
    (∀ len, is 8 → natOfBytes (d.take 8) = len → h.addr % 64 = 0 → len % 64 = 0 → (firstUnreached s h.addr len).isSome = true →
      Runs (.pnotice m) s (fun t => same t ∧ sub 5 3 2 [] t ∧ Logged memPage 4 s t ∧ Logged txnPage 6 s t)) ∧
    (Arrives m 1 s → ttypeOf m = 0 ∨ 8 < ttypeOf m → Runs (.reservedTtype m) s (fun t =>
      same t ∧ Logged txnPage 4 s t ∧ t.objs = s.objs ∧ t.txn.flows = (arrived m s).txn.flows)) ∧
    (Arrives m 3 s → Runs (.reservedTtype m) s (fun t => t = arrived m s)) ∧
    (m.dest = moduleId s → m.kind = 0 ∨ 3 < m.kind → Runs (.reservedTtype m) s (fun t =>
      same t ∧ Logged txnPage 4 s t ∧ t.objs = s.objs ∧ t.txn = s.txn))

/-- What a requester does with a reply, or without one (R274, R367, R368, R370, R375, R381): a matched reply frees its tag and
delivers; a status other than OK is REMSTAT; an unmatched one is STRAYREPLY; a timeout holds the tag until its release.
Where it rests on the model's reading, see log entries 57 and 83; a clause where nothing changes because the occasion is absent
rests on log entry 1. -/
def Obligations.ReplyEffects : Prop :=
  ∀ (m : Msg) (h : TxnHdr) (d : List Byte) (r : SubReply) (tag : BitVec 17) (o : Outstanding) (s : State),
    let same := fun (t : State) => t.mem = s.mem ∧ t.cores = s.cores
    let sub := fun (ty : Nat) => Arrives m 1 s ∧ m.body = .reply ty [r] ∧ mfind s.txn.tags r.tag = some o ∧
      o.timedOut = false ∧ m.bad = [] ∧ s.txn.deferred = []
    let status := fun (st : Nat) (t : State) => st ≠ 0 → Logged txnPage 1 s t
    let live := mfind s.txn.tags tag.toNat = some o ∧ o.timedOut = false ∧ s.txn.tags.Pairwise (fun a b => a.1 < b.1)
    (∀ (ch : ChanId) (row off : Nat) (y : Xfer) (old : List (Byte × Bool)), sub 4 → o.ttype = 1 → r.data ≠ [] →
      o.use = .rowRead ch.val y.serial row off → (s.chan ch).active = some y → mfind y.rowsIn row = some old →
      Runs (.rdata m) s (fun t => same t ∧ mfind t.txn.tags r.tag = none ∧ status r.status t ∧
        ∃ z, (t.chan ch).active = some z ∧
          mfind z.rowsIn row = some (splice off (r.data.map (fun b => (b, false))) old) ∧
          ∀ k, k ≠ row → mfind z.rowsIn k = mfind y.rowsIn k)) ∧
    (sub 5 → o.ttype = 8 → o.use = .pnotice → Runs (.wcomp m) s (fun t =>
      same t ∧ mfind t.txn.tags r.tag = none ∧ status r.status t ∧ t.chans = s.chans)) ∧
    (∀ (ch : ChanId) (serial row : Nat), sub 5 → o.ttype = 2 → o.use = .rowWrite ch.val serial row → Runs (.wcomp m) s (fun t =>
      same t ∧ mfind t.txn.tags r.tag ≠ some o ∧ status r.status t)) ∧
    (∀ code, Arrives m 1 s → m.body = .txn h d → h.ttype = 6 → mfind s.txn.tags h.tag = some o → o.timedOut = false →
      o.ttype = 3 → o.use = .rop code → s.txn.deferred = [] → d.length = 8 → Runs (.aresult m) s (fun t =>
        same t ∧ mfind t.txn.tags h.tag = none ∧ status h.status t ∧
        rawWord t (1 + code) txnPage 0x12C = h.status * 2 % 2 ^ 32 ∧
        (h.status ≠ 4 → rawPair t (1 + code) txnPage 0x130 = natOfBytes d))) ∧
    (∀ cmd ty, (cmd = Instr.rdata m ∧ ty = 4) ∨ (cmd = .wcomp m ∧ ty = 5) → Arrives m 1 s → m.body = .reply ty [r] →
      mfind s.txn.tags r.tag = none → Runs cmd s (fun t => Logged txnPage 3 s t ∧ same t ∧ t.chans = s.chans ∧
        t.txn.tags = s.txn.tags)) ∧
    (live → Runs (.txtimeout tag) s (fun t => same t ∧ t.now = max s.now (o.issuedAt + txTimeout s) ∧ Logged txnPage 0 s t ∧
      mfind t.txn.tags tag.toNat = some { o with timedOut := true } ∧
      bitOf (mget 0 t.bnd.charged (useStep s o.use)) 5 = true ∧
      (∀ code, o.use = .rop code → rawWord t (1 + code) txnPage 0x12C = 8) ∧
      (∀ ch serial row, o.use = .rowWrite ch serial row → 0 < o.len → freeTag s ≠ none → ∃ y ∈ t.ick.outbox, y.dest = o.dest ∧
        ttypeOf y = 8 ∧ y.vc = 6 ∧ y.flow = 52))) ∧
    (mfind s.txn.tags tag.toNat = none → Runs (.txtimeout tag) s (fun t => t = s) ∧ Runs (.tagRelease tag) s (fun t => t = s)) ∧
    (mfind s.txn.tags tag.toNat = some o → o.timedOut = true → s.txn.deferred = [] → Runs (.tagRelease tag) s (fun t =>
      same t ∧ t.now = max s.now (o.issuedAt + 2 * txTimeout s) ∧ mfind t.txn.tags tag.toNat = none ∧
      ∀ k, k ≠ tag.toNat → mfind t.txn.tags k = mfind s.txn.tags k)) ∧
    (mfind s.txn.tags tag.toNat = some o → o.timedOut = false → Runs (.tagRelease tag) s (fun t => t = s))

/-- Remote operations and forwarders (R361, R369, R374 to R377): an operation acts here, waiting for its tile, or leaves as one
message, BUSY until it is done or has left; with HELD it is held to its task's commit, and is skipped where R375 says so, by a
requester that is no core with a task running among them; a forwarder raises its threshold and sends.
Where it rests on the model's reading, see log entry 57; that nothing fires where the threshold is not met rests on log entry 1. -/
def Obligations.RemoteOperations : Prop :=
  ∀ (r : Req) (op : Nat) (held : Bool) (v : W32) (fw : BitVec 10) (s : State),
    let b := reqBank r
    let a := rawPair s b txnPage 0x110
    let x := BitVec.ofNat 64 (rawPair s b txnPage 0x118)
    let cmp := BitVec.ofNat 64 (rawPair s b txnPage 0x120)
    let dest := bitsOf a 57 44
    let adr := a % 2 ^ 44
    let obj := bitsOf a 16 0
    let idle := bitOf (rawWord s b txnPage 0x12C) 0 = false
    let u := setRopStat (reqCode r) 1 0 (unsampleReq r s)
    let w : WaitFor := .rop (reqCode r) op adr x cmp
    let clear := asleepAt u adr = none ∧ settleRange adr 8 u = u ∧ unready u true adr 8 = [] ∧ waitsBehind u (waitTiles (some (true, adr, 8))) = false
    let old := BitVec.ofNat 64 (loadN s adr 8)
    let cmd := fun (op : Nat) (held : Bool) => if op = 1 then Instr.ropFadd r held else if op = 2 then .ropSwap r held
      else if op = 3 then .ropCas r held else if op = 4 then .ropUmax r held else if op = 5 then .ropUmin r held
      else if op = 8 then .ropSoopAdd r held else .ropSoopSet r held
    let known := (1 ≤ op ∧ op ≤ 5) ∨ op = 8 ∨ op = 9
    let result : W64 := match op with
      | 1 => old + x
      | 2 => x
      | 3 => if old = cmp then x else old
      | 4 => if old.toNat ≤ x.toNat then x else old
      | _ => if x.toNat ≤ old.toNat then x else old
    let skips := fun (t : State) => Logged txnPage 5 s t ∧ t.mem = s.mem ∧ t.objs = s.objs ∧ t.ick = s.ick ∧ t.cores = s.cores ∧
      rawWord t b txnPage 0x12C = rawWord s b txnPage 0x12C
    let fb := entryBank fw.toNat
    let cfg := rawWord s fb txnPage 0x144
    let thr := rawPair s fb txnPage 0x148
    let fires := s.power.meridian = 2 ∧ bitOf cfg 31 = true ∧ thr ≤ (objGet s (bitsOf cfg 16 0)).toNat
    let target := fun (k : Nat) => rawWord s fb txnPage (0x154 + 4 * k)
    (reaches r s = true →
      (known → ¬ idle → Runs (cmd op held) s skips) ∧
      (1 ≤ op → op ≤ 5 → held = true → Runs (cmd op held) s skips) ∧
      (op = 8 ∨ op = 9 → (∀ c, r = .core c → (s.core c).live = false) → Runs (cmd op true) s skips) ∧
      (¬ ((1 ≤ bitsOf v.toNat 3 0 ∧ bitsOf v.toNat 3 0 ≤ 5) ∨ bitsOf v.toNat 3 0 = 8 ∨ bitsOf v.toNat 3 0 = 9) →
        Runs (.ropReserved r v) s skips) ∧
      (known → idle → held = false → bitsOf a 63 58 ≠ 0 → Runs (cmd op held) s (fun t =>
        t = { s with regs := t.regs } ∧ rawWord t b txnPage 0x12C = 10)) ∧
      (idle → held = false → bitsOf a 63 58 = 0 → 1 ≤ op → op ≤ 5 →
        (dest = moduleId s → adr % 8 = 0 → targetStatus s adr 8 = 0 → unready (settleRange adr 8 u) true adr 8 ≠ [] →
          Runs (cmd op held) s (fun t => rawWord t b txnPage 0x12C = 1 ∧ t.mem = s.mem ∧ t.ick = s.ick ∧
            ∃ y ∈ t.mig.waiters, y.what = w)) ∧
        (dest = moduleId s → adr % 8 = 0 → targetStatus s adr 8 = 0 → clear → Runs (cmd op held) s (fun t =>
          rawPair t b txnPage 0x130 = old.toNat ∧ rawWord t b txnPage 0x12C = 0 ∧ loadN t adr 8 = result.toNat ∧
          t.ick = s.ick ∧ ∀ y, y < adr ∨ adr + 8 ≤ y → memGet t.mem y = memGet s.mem y)) ∧
        (dest = moduleId s → adr % 8 ≠ 0 → Runs (cmd op held) s (fun t =>
          rawWord t b txnPage 0x12C = 6 ∧ t.mem = s.mem ∧ t.ick = s.ick)) ∧
        (∀ tag, dest ≠ moduleId s → freeTag s = some tag → Runs (cmd op held) s (fun t =>
          rawWord t b txnPage 0x12C = 1 ∧ t.mem = s.mem ∧ Sent s t (fun y => y.dest = dest ∧ y.vc = 0 ∧ y.flow = ropFlow r ∧
            y.body = .txn ⟨3, 0, tag, adr, 7, op⟩ (bytesOfNat 8 x.toNat ++ bytesOfNat 8 cmp.toNat)) ∧
          (mfind t.txn.tags tag).map (·.use) = some (.rop (reqCode r))))) ∧
      (idle → bitsOf a 63 58 = 0 →
        (dest = moduleId s →
          Runs (.ropSoopAdd r false) s (fun t => rawWord t b txnPage 0x12C = 0 ∧ t.mem = s.mem ∧ t.ick = s.ick ∧
            ∀ o, objGet t o = objGet s o + (if o = obj then x else 0)) ∧
          Runs (.ropSoopSet r false) s (fun t => rawWord t b txnPage 0x12C = 0 ∧ t.mem = s.mem ∧ t.ick = s.ick ∧
            ∀ o, objGet t o = if o = obj then x else objGet s o)) ∧
        (dest ≠ moduleId s → op = 8 ∨ op = 9 → Runs (cmd op false) s (fun t => rawWord t b txnPage 0x12C = 1 ∧
          t.mem = s.mem ∧ t.objs = s.objs ∧ (∃ y, t.txn.leaving = s.txn.leaving ++ [(reqCode r, y)] ∧
            t.ick.outbox = s.ick.outbox ++ [y]) ∧ Sent s t (fun y => y.dest = dest ∧ y.vc = 7 ∧ y.flow = ropFlow r ∧
            y.body = .txn ⟨7, 0, 0, obj, 7, op - 8⟩ (bytesOfNat 8 x.toNat)))) ∧
        (∀ c k, r = .core c → (s.core c).live = true → (s.core c).sched.task = some k → k.run ≠ .check → op = 8 ∨ op = 9 →
          Runs (cmd op true) s (fun t => t.objs = s.objs ∧ t.mem = s.mem ∧ t.ick = s.ick ∧
            (t.core c).sched.task.map (·.held) = some (k.held ++
              [if op = 9 then .remoteSet dest obj x (ropFlow r) else .remoteAdd dest obj x (ropFlow r)]))))) ∧
    (∀ (p : Fin 2) g, r = .func p g → s.power.meridian ≠ 2 → Runs (cmd op held) s (fun t => t.mem = s.mem ∧ t.cores = s.cores ∧
      t.txn = s.txn ∧ t.ick = s.ick ∧ t.objs = s.objs)) ∧
    (fires → Runs (.forwarderFire fw) s (fun t => t.mem = s.mem ∧ t.cores = s.cores ∧
      rawPair t fb txnPage 0x148 = (thr + rawWord s fb txnPage 0x150) % 2 ^ 64 ∧
      rawPair t fb txnPage 0x168 = min (rawPair s fb txnPage 0x168 + 1) (2 ^ 64 - 1) ∧
      (bitOf (target 0) 31 = true → bitsOf (target 0) 13 0 ≠ moduleId s → (∀ k, 1 ≤ k → k < 4 → bitOf (target k) 31 = false) →
        t.objs = s.objs ∧ Sent s t (fun y => y.dest = bitsOf (target 0) 13 0 ∧ y.vc = 7 ∧ y.flow = 52 ∧
          y.body = .txn ⟨7, 0, 0, bitsOf (target 0) 30 14, 7, 0⟩ (bytesOfNat 8 1))) ∧
      (bitOf (target 0) 31 = true → bitsOf (target 0) 13 0 = moduleId s → (∀ k, 1 ≤ k → k < 4 → bitOf (target k) 31 = false) →
        t.ick = s.ick ∧ ∀ o, objGet t o = objGet s o + (if o = bitsOf (target 0) 30 14 then 1 else 0)))) ∧
    (¬ fires → Runs (.forwarderFire fw) s (fun t => t = s))

/-! ### Reliability -/

/-- The logbook and withdrawal (R416, R417, R421, R464): Vesper appends the first waiting entry with its number, boot and time, in
memory and in the flash; one that finds the logbook full is kept, with MEMERR (of kind 0x05 too: log entry 51), and one of kind
0x05, an uncorrectable memory error, is dropped when fewer than 4,096 places are free; an entry that reaches the permanent
threshold withdraws a core; a link period charges the ports whose count rose too far; the oldest report goes to the receiver that
was set, on its path, as an event of class 0xF0 with 44 bytes of data. That nothing changes where nothing waits rests on log
entry 1.
Field tests, checkpoints and job numbers (R412, R418 to R420): a test falls due, waits, starts at a task boundary, ends by its
passes; a permitted checkpoint ends a wait; a job number is written by those who may, else FIELDSKIP.
Where it rests on the model's reading, see log entry 74; a clause where nothing changes because the occasion is absent rests on
log entry 1. -/
def Obligations.LogbookEffects : Prop :=
  (∀ (e : LogEntry) (l : List LogEntry) (c : CoreId) (rep : Report) (reps : List Report) (path : Path) (eid : Nat) (s : State),
     let book := s.rel.logbook
     let entry := { e with seq := s.rel.nextSeq, boot := s.vesper.bootCount, cycles := (s.now - s.vesper.goodAt) / 40 }
     let counted := e.kind = 1 ∨ e.kind = 2 ∨ e.kind = 6
     let exceeds := fun (p : PortId) => decide (rawWord s 0 relPage 0x114 <
       rawPair s 0 (prtPage p) (prtOff p 0x20) - mget 0 s.rel.crcBase p.val)
     let charge := fun (p : PortId) =>
       (⟨0, 0, 0, 1, 3, p.val, 0, s.power.hours, 0⟩ : LogEntry)
     (s.rel.toWrite = [] → Runs .logbookWrite s (fun t => t = s)) ∧
     (s.rel.toWrite = e :: l → s.rel.nextSeq < 524288 → (e.kind = 5 → s.rel.nextSeq ≤ 520192) →
       Runs .logbookWrite s (fun t => t.rel.logbook = book ++ [entry] ∧ t.rel.nextSeq = s.rel.nextSeq + 1 ∧
         flashBytes t (entryAt s.rel.nextSeq) 32 = entryBytes entry ∧ Logged relPage 2 s t ∧
         (¬ counted → t.rel.toWrite = l ∧ t.mem = s.mem ∧ t.cores = s.cores ∧ t.rel.withdrawn = s.rel.withdrawn) ∧
         (counted → e.cls = 0 → e.index = c.val → e.hours = s.power.hours → (∀ d, withdrawn s 0 d = false) →
           fieldOf s 0 relPage 0x108 7 0 ≤ (book ++ s.rel.keptEntries).countP (counts s 0 c.val) + 1 →
           withdrawn t 0 c.val = true ∧ c.val ∈ t.power.gated ∧ (t.core c).sched.slots = [] ∧
           (t.core c).sched.task = none ∧ Logged relPage 4 s t))) ∧
     (s.rel.toWrite = e :: l → 524288 ≤ s.rel.nextSeq → ¬ counted → Runs .logbookWrite s (fun t =>
       t.rel.logbook = book ∧ t.rel.keptEntries = s.rel.keptEntries ++ [e] ∧ t.rel.toWrite = l ∧ Logged relPage 6 s t ∧
       rawPair t 0 relPage 0x158 = min (rawPair s 0 relPage 0x158 + 1) (2 ^ 64 - 1))) ∧
     (s.rel.toWrite = e :: l → s.rel.nextSeq < 524288 → 520192 < s.rel.nextSeq → e.kind = 5 → Runs .logbookWrite s (fun t =>
       t = { s with rel := { s.rel with toWrite := l }, regs := t.regs } ∧
       rawPair t 0 relPage 0x158 = min (rawPair s 0 relPage 0x158 + 1) (2 ^ 64 - 1))) ∧
     Runs .linkPeriod s (fun t => t = { s with rel := t.rel } ∧ t.rel.logbook = book ∧
       (∀ p : PortId, mget 0 t.rel.crcBase p.val = rawPair s 0 (prtPage p) (prtOff p 0x20)) ∧
       t.rel.toWrite = s.rel.toWrite ++ (allPorts.filter exceeds).map charge) ∧
     (s.vesper.receiver = some (path, eid) → s.rel.reports = rep :: reps → Runs .reportSend s (fun t =>
       t = { s with rel := { s.rel with reports := reps, dropped := 0 }, out := t.out } ∧
       ∃ d, t.out = s.out ++ [.report path eid 0xF0 d] ∧ d.length = 44 ∧ d.take 2 = bytesOfNat 2 rep.page ∧
         (d.drop 2).take 1 = bytesOfNat 1 rep.flag ∧ (d.drop 4).take 4 = bytesOfNat 4 rep.count ∧
         (d.drop 8).take 4 = bytesOfNat 4 s.rel.dropped ∧
         (∀ k, k < 4 → (d.drop (12 + 4 * k)).take 4 = bytesOfNat 4 ((rep.capture.getD []).getD k 0)) ∧
         (d.drop 28).take 8 = bytesOfNat 8 rep.step ∧
         (d.drop 36).take 8 = bytesOfNat 8 ((s.now - s.vesper.goodAt) / 40))) ∧
     (s.vesper.receiver = none ∨ s.rel.reports = [] → Runs .reportSend s (fun t => t = s))) ∧
  (∀ (r : Req) (c : CoreId) (first second : Bool) (v : W32) (s : State),
     let k := s.core c
     let ft := ftOf s c
     let others := fun (t : State) => ∀ d, d ≠ c → ftOf t d = ftOf s d
     let calm := fun (t : State) => t.mem = s.mem ∧ t.cores = s.cores ∧ t.rel.logbook = s.rel.logbook
     let since := mget s.now s.rel.ftSince c.val
     let sel := relSel s r
     let named := fun (d : CoreId) => bitOf v.toNat d.val = true
     let may := fun (d : CoreId) => named d ∧ mayCheckpoint s r d = true
     let ready := ft = 1 ∧ k.sched.task = none ∧ s.power.meridian = 2 ∧ c.val ∉ s.power.gated
     let waits := ft = 1 ∧ c.val ∉ s.rel.ckpt ∧ k.sched.task ≠ none
     (inService s c = true → ft = 0 → Runs (.fieldTestDue c) s (fun t => ftOf t c = 1 ∧ others t ∧ calm t ∧
       (s.power.modState = 2 → s.power.tripped = false → s.power.meridian = 4 → s.power.refclk156 = true → t.power.meridian = 1))) ∧
     (inService s c = false ∨ ft ≠ 0 → Runs (.fieldTestDue c) s (fun t => t = s)) ∧
     Runs (.relFtreq r v) s (fun t => calm t ∧ ∀ d, ftOf t d =
       (if named d ∧ inService s d = true ∧ ftOf s d = 0 then 1 else ftOf s d)) ∧
     (ready → Runs (.fieldTestStart c) s (fun t => ftOf t c = 3 ∧ others t ∧ CoresKept c s t ∧ t.mem = s.mem ∧
         (t.core c).sched.fieldTest = true ∧ (t.core c).ctl = k.ctl ∧ (t.core c).vec = k.vec ∧
         (t.core c).queues = k.queues ∧ (t.core c).sched.slots = k.sched.slots)) ∧
     (¬ ready → Runs (.fieldTestStart c) s (fun t => t = s)) ∧
     (ft = 3 → first = true → Runs (.fieldTestEnd c first second) s (fun t => ftOf t c = 0 ∧ others t ∧
       (t.core c).sched.fieldTest = false ∧ CoresKept c s t ∧ t.rel.toWrite = s.rel.toWrite ∧ t.regs = s.regs)) ∧
     (ft = 3 → first = false → second = true → Runs (.fieldTestEnd c first second) s (fun t => ftOf t c = 0 ∧ others t ∧
       (t.core c).sched.fieldTest = false ∧ CoresKept c s t ∧ Logged relPage 7 s t ∧
       t.rel.toWrite = s.rel.toWrite ++ [⟨0, 0, 0, 6, 0, c.val, 0, s.power.hours, 0⟩])) ∧
     (ft = 3 → first = false → second = false → (∀ d, withdrawn s 0 d = false) →
       Runs (.fieldTestEnd c first second) s (fun t => ftOf t c = 0 ∧ Logged relPage 7 s t ∧ Logged relPage 4 s t ∧
         withdrawn t 0 c.val = true ∧ (t.core c).sched.slots = [] ∧ (t.core c).sched.fieldTest = false)) ∧
     (ft ≠ 3 → Runs (.fieldTestEnd c first second) s (fun t => t = s)) ∧
     (waits → Runs (.ftBudgetExpire c) s (fun t => ftOf t c = 2 ∧ others t ∧ calm t ∧ Logged relPage 7 s t ∧
         t.now = max s.now (since + msCycles (fieldOf s 0 relPage 0x11C 15 0)))) ∧
     (¬ waits → Runs (.ftBudgetExpire c) s (fun t => t = s)) ∧
     (ft = 2 → Runs (.ftLateExpire c) s (fun t => ftOf t c = 1 ∧ others t ∧ calm t ∧ Logged relPage 7 s t ∧
       c.val ∈ t.rel.ckpt ∧ t.now = max s.now (since + hourCycles (fieldOf s 0 relPage 0x120 15 0)))) ∧
     (ft ≠ 2 → Runs (.ftLateExpire c) s (fun t => t = s)) ∧
     ((∃ d, may d) ∨ (∀ d, ¬ named d) → Runs (.relCkpt r v) s (fun t => calm t ∧ t.regs = s.regs ∧
         ∀ d, (may d ∧ ftOf s d = 2 → ftOf t d = 1 ∧ d.val ∈ t.rel.ckpt) ∧ (¬ (may d ∧ ftOf s d = 2) → ftOf t d = ftOf s d))) ∧
     ((∃ d, named d) → (∀ d, ¬ may d) → Runs (.relCkpt r v) s (fun t => calm t ∧ Logged 0 5 s t ∧
         t.rel.ftState = s.rel.ftState ∧ t.rel.ckpt = s.rel.ckpt)) ∧
     (mayWriteJob s r sel = true → Runs (.relCtxjobWrite r v) s (fun t => t = { s with regs := t.regs } ∧
       jobOf t sel = bitsOf v.toNat 13 0 ∧ bitOf (jobWord t sel) 16 = bitOf (jobWord s sel) 16 ∧
       ∀ k, k ≠ sel → jobOf t k = jobOf s k)) ∧
     (mayWriteJob s r sel = false → Runs (.relCtxjobWrite r v) s (fun t => Logged 0 5 s t ∧ calm t ∧
       ∀ k, jobOf t k = jobOf s k)))

/-! ### The host interface -/

/-- The memory window (R427, R428, R430, R431): an access whose memory is ready acts and answers at once, a read with its poisoned
attribute, unallocated and reserved bytes aside; one that must wait for a tile is held in order, and one that must wait for Meridian
starts it as well; one beyond the window or of a function that is not enabled, and a request that is neither read nor write, is
unsupported; a read held 2 ms is aborted.
Where it rests on the model's reading, see log entries 31, 58 and 106; that nothing changes where no read is held rests on log
entry 1. -/
def Obligations.WindowEffects : Prop :=
  ∀ (p : Fin 2) (f : Fin 65) (x len : Nat) (data : List Byte) (poison : Bool) (w : WinAccess) (s : State),
    let a := mwBase s p f + x
    let q := (s.host p).windowQ
    let live := fun (n : Nat) => fnLive s p f = true ∧ x + n ≤ windowSize s p f
    let rd : WinAccess :=
      { fn := f.val, off := x, addr := a, len := len, data := none, poison := false, ctl := none, arrived := s.now }
    let wr : WinAccess := { rd with len := data.length, data := some data, poison := poison }
    let held := fun (acc : WinAccess) (t : State) => (t.host p).windowQ = q ++ [acc] ∧ t.mem = s.mem ∧ t.out = s.out ∧
      t.cores = s.cores ∧ (s.power.modState = 2 → s.power.tripped = false → s.power.meridian = 4 → s.power.refclk156 = true →
        waitsMeridian s a (inUnified a acc.len) = true → t.power.meridian = 1)
    (live len → q = [] → 0 < len → a + len ≤ 0x30000000000 → accessWaits s p rd = false →
      Runs (.memoryWindowRead p f x (.read len)) s (fun t => t.mem = s.mem ∧ t.cores = s.cores ∧
        t.out = s.out ++ [.readDone p f.val (memGetAll s.mem a len) (poisoned s a len)])) ∧
    (live data.length → q = [] → data ≠ [] → a + data.length ≤ 0x30000000000 → accessWaits s p wr = false →
      firstUnalloc s a data.length = none →
      Runs (.memoryWindowWrite p f x data poison) s (fun t => t.cores = s.cores ∧ memGetAll t.mem a data.length = data ∧
        (∀ y, y < a ∨ a + data.length ≤ y → memGet t.mem y = memGet s.mem y) ∧
        (poison = true → poisoned t a data.length = true))) ∧
    (live len → q = [] → 0x30000000000 ≤ a → 0 < len → Runs (.memoryWindowRead p f x (.read len)) s (fun t =>
      t.mem = s.mem ∧ Logged memPage 4 s t ∧ t.out = s.out ++ [.readDone p f.val (List.replicate len 0) false])) ∧
    (live data.length → q = [] → 0x30000000000 ≤ a → data ≠ [] → Runs (.memoryWindowWrite p f x data poison) s (fun t =>
      t.mem = s.mem ∧ Logged memPage 4 s t ∧ t.out = s.out ∧ t.poison = s.poison)) ∧
    (live len → q ≠ [] ∨ accessWaits s p rd = true → Runs (.memoryWindowRead p f x (.read len)) s (held rd)) ∧
    (live data.length → q ≠ [] ∨ accessWaits s p wr = true → Runs (.memoryWindowWrite p f x data poison) s (held wr)) ∧
    (¬ live len → Runs (.memoryWindowRead p f x (.read len)) s (fun t => t = { s with out := s.out ++ [.unsupported p f.val] })) ∧
    (¬ live data.length → Runs (.memoryWindowWrite p f x data poison) s (fun t => t = s)) ∧
    Runs (.memoryWindowRead p f x .other) s (fun t => t = { s with out := s.out ++ [.unsupported p f.val] }) ∧
    (q = [w] → w.data = none → Runs (.cplabort p) s (fun t => (t.host p).windowQ = [] ∧ Logged hostPage 2 s t ∧
      t.out = s.out ++ [.readAbort p w.fn] ∧ t.now = max s.now (w.arrived + msCycles 2) ∧ t.mem = s.mem)) ∧
    ((∀ y ∈ q, y.data ≠ none) → Runs (.cplabort p) s (fun t => t = s))

/-- Doorbells, watches and vectors (R434 to R437, R442): a bound doorbell's add waits for the writes before it and then reaches its
object, and with the feature off the write is discarded under FIELDSKIP; bindings and watches are written within what is granted; a
watch fires once or steps its threshold; an unmasked vector of a function whose Bus Master Enable is set is written, any other stays
pending.
Where it rests on the model's reading, see log entries 10 and 62; a clause where nothing changes because the occasion is absent
rests on log entry 1. -/
def Obligations.DoorbellEffects : Prop :=
  ∀ (p : Fin 2) (f : Fin 65) (d : BitVec 8) (w : BitVec 10) (vec : BitVec 11) (v : W64) (x : W32) (s : State),
    let h := s.host p
    let page := funcPage p f
    let b := funcEntry s p f d.toNat 0x164
    let others := fun (t : State) => ∀ k, k ≠ p → t.host k = s.host k
    let calm := fun (t : State) => t.mem = s.mem ∧ t.cores = s.cores
    let db := bitsOf (funcWord s p f 0x160) 7 0
    let sel := watchSel s p f
    let cfg := funcEntry s p f w.toNat 0x174
    let thr := rawPair s (entryBank w.toNat) page 0x178
    let inc := funcEntry s p f w.toNat 0x180
    let fires := w.toNat < watchCount f ∧ featureOn s p f 1 = true ∧ bitOf cfg 31 = true ∧
      thr ≤ (objGet s (bitsOf cfg 16 0)).toNat
    let key := f.val * 2048 + vec.toNat
    let same := fun (off n : Nat) (t : State) => rawWord t (entryBank n) page off = rawWord s (entryBank n) page off
    let wanted := key ∈ h.msixPending ∨ key ∈ h.msixSignalled
    (featureOn s p f 0 = false → Runs (.doorbell p f d v) s (fun t =>
      Logged 0 5 s t ∧ (t.host p).doorbells = h.doorbells ∧ calm t ∧ t.objs = s.objs)) ∧
    (featureOn s p f 0 = true → bitOf b 31 = true → Runs (.doorbell p f d v) s (fun t => t = { s with hosts := t.hosts } ∧
      others t ∧ t.host p = { h with
        doorbells := h.doorbells ++ [(bitsOf b 16 0, v, h.windowQ.countP (fun y => y.data.isSome))] })) ∧
    (featureOn s p f 0 = true → bitOf b 31 = false → Runs (.doorbell p f d v) s (fun t =>
      Logged hostPage 1 s t ∧ (t.host p).doorbells = h.doorbells ∧ calm t ∧ t.objs = s.objs)) ∧
    (∀ o y l, h.doorbells = (o, y, 0) :: l → Runs (.doorbellApply p) s (fun t => others t ∧ calm t ∧ t.regs = s.regs ∧
      (t.host p).doorbells = l ∧ ∀ k, objGet t k = objGet s k + (if k = o then y else 0))) ∧
    (∀ o y n l, h.doorbells = (o, y, n + 1) :: l → Runs (.doorbellApply p) s (fun t => t = s)) ∧
    (bitOf x.toNat 31 = false ∨ objGranted s p f (bitsOf x.toNat 16 0) = true → Runs (.hifDbobjWrite p f x) s (fun t =>
      t = { s with regs := t.regs } ∧ fieldOf t (entryBank db) page 0x164 16 0 = bitsOf x.toNat 16 0 ∧
      fieldOf t (entryBank db) page 0x164 31 31 = bitsOf x.toNat 31 31)) ∧
    (bitOf x.toNat 31 = true → objGranted s p f (bitsOf x.toNat 16 0) = false → Runs (.hifDbobjWrite p f x) s (fun t =>
      Logged hostPage 1 s t ∧ same 0x164 db t ∧ calm t)) ∧
    (sel < watchCount f → objGranted s p f (bitsOf x.toNat 16 0) = true → bitsOf x.toNat 28 18 < msixCount f →
      Runs (.hifWcfgWrite p f x) s (fun t => t = { s with regs := t.regs } ∧
        fieldOf t (entryBank sel) page 0x174 16 0 = bitsOf x.toNat 16 0 ∧
        fieldOf t (entryBank sel) page 0x174 28 18 = bitsOf x.toNat 28 18 ∧
        fieldOf t (entryBank sel) page 0x174 31 31 = bitsOf x.toNat 31 31)) ∧
    (sel < watchCount f → objGranted s p f (bitsOf x.toNat 16 0) = false ∨ msixCount f ≤ bitsOf x.toNat 28 18 →
      Runs (.hifWcfgWrite p f x) s (fun t => Logged hostPage 1 s t ∧ same 0x174 sel t ∧ calm t)) ∧
    (watchCount f ≤ sel → Runs (.hifWcfgWrite p f x) s (fun t => Logged 0 5 s t ∧ same 0x174 sel t ∧ calm t)) ∧
    (fires → Runs (.watchFire p f w) s (fun t => calm t ∧ others t ∧
      (f.val * 2048 + bitsOf cfg 28 18 ∈ (t.host p).msixPending ∨ f.val * 2048 + bitsOf cfg 28 18 ∈ (t.host p).msixSignalled) ∧
      (inc = 0 → fieldOf t (entryBank w.toNat) page 0x174 31 31 = 0) ∧
      (inc ≠ 0 → rawPair t (entryBank w.toNat) page 0x178 = (thr + inc) % 2 ^ 64 ∧ same 0x174 w.toNat t))) ∧
    (¬ fires → Runs (.watchFire p f w) s (fun t => t = s)) ∧
    (wanted → msixMasked s p f vec.toNat = false → maySend s p f = true → Runs (.msixWrite p f vec) s (fun t => others t ∧ calm t ∧
      key ∉ (t.host p).msixPending ∧ key ∉ (t.host p).msixSignalled ∧
      t.out = s.out ++ [.msix p f.val vec.toNat (msixWord s p f vec.toNat 0 + 2 ^ 32 * msixWord s p f vec.toNat 4)
        (BitVec.ofNat 32 (msixWord s p f vec.toNat 8))])) ∧
    (wanted → msixMasked s p f vec.toNat = true ∨ maySend s p f = false → Runs (.msixWrite p f vec) s (fun t => others t ∧ calm t ∧
      key ∈ (t.host p).msixPending ∧ key ∉ (t.host p).msixSignalled)) ∧
    (¬ wanted → Runs (.msixWrite p f vec) s (fun t => t = s))

/-- Features and the assignment of contexts (R432, R433, R437, R441): FEATOK is taken when every accepted feature is offered, else
refused; the window base and the administration word are written by those who may; contexts change owner all together or
not at all.
Where it rests on the model's reading, see log entry 60; that a feature state already there stays rests on log entry 1. -/
def Obligations.AssignmentEffects : Prop :=
  ∀ (r : Req) (p port : Fin 2) (f fn : Fin 65) (v : W64) (x : W32) (s : State),
    let page := funcPage p f
    let on := bitOf (funcWord s p f 0x140) 0 = true
    let word := fun (off : Nat) (t : State) => rawWord t 0 page off
    let only := fun (t : State) => t = { s with regs := t.regs }
    let calm := fun (t : State) => t.mem = s.mem ∧ t.cores = s.cores ∧ t.chans = s.chans
    let owners := fun (cs : List Nat) (n : Nat) (t : State) => only t ∧ ∀ c, ctxOwner t c = if c ∈ cs then n else ctxOwner s c
    let skipped := fun (t : State) => Logged hostPage 1 s t ∧ calm t ∧ ∀ c, ctxOwner t c = ctxOwner s c
    (on → Runs (.featok p f) s (fun t => t = s)) ∧
    (¬ on → acceptable s p f = true → Runs (.featok p f) s (fun t => only t ∧ word 0x140 t = 1)) ∧
    (¬ on → acceptable s p f = false → Runs (.featok p f) s (fun t => word 0x140 t = 2 ∧ Logged hostPage 4 s t ∧ calm t)) ∧
    (on → Runs (.featureWithdraw p f) s (fun t => only t ∧ word 0x140 t = 0 ∧ mwBase t p f = 0 ∧
      bitOf (word 0x184 t) 31 = false ∧ ∀ k, featureOn t p f k = false)) ∧
    (¬ on → Runs (.featureWithdraw p f) s (fun t => t = s)) ∧
    (featureOn s p f 4 = true → Runs (.hifMwbaseWrite p f v) s (fun t => only t ∧
      mwBase t p f = bitsOf v.toNat 43 21 * 2 ^ 21)) ∧
    (featureOn s p f 4 = false → Runs (.hifMwbaseWrite p f v) s (fun t => Logged hostPage 0 s t ∧ calm t ∧
      mwBase t p f = mwBase s p f)) ∧
    (∀ cs, ctxRange s r = some cs → (∀ c ∈ cs, ctxFree s c = true ∧ mayAssign s r port fn c = true) →
      Runs (.ctxAssign r port fn) s (owners cs (port.val + fn.val * 2 + 2 ^ 8))) ∧
    (ctxRange s r = none ∨ (∃ cs, ctxRange s r = some cs ∧ moveBarred s r port fn cs = false ∧
        ∃ c ∈ cs, ctxFree s c = false ∨ mayAssign s r port fn c = false) →
      Runs (.ctxAssign r port fn) s skipped) ∧
    (∀ cs, ctxRange s r = some cs → moveBarred s r port fn cs = true → Runs (.ctxAssign r port fn) s (fun t =>
      Logged hostPage 0 s t ∧ calm t ∧ ∀ c, ctxOwner t c = ctxOwner s c)) ∧
    (∀ cs, ctxRange s r = some cs → mayAdmin s r = true → (∀ c ∈ cs, ctxFree s c = true) →
      Runs (.ctxUnassign r) s (owners cs 0)) ∧
    (ctxRange s r = none ∨ mayAdmin s r = false → Runs (.ctxUnassign r) s skipped) ∧
    (pageEn s hostPage = false → r = .vesper → Runs (.hifAdminWrite r x) s (fun t => only t ∧
      portAdmin t 0 = bitOf x.toNat 0 ∧ portAdmin t 1 = bitOf x.toNat 1)) ∧
    (pageEn s hostPage = false → r ≠ .vesper → Runs (.hifAdminWrite r x) s (fun t => Logged 0 5 s t ∧ calm t ∧
      portAdmin t port = portAdmin s port)) ∧
    (pageEn s hostPage = true → Runs (.hifAdminWrite r x) s (fun t => Logged 0 3 s t ∧ calm t ∧
      portAdmin t port = portAdmin s port))

/-- Resets of functions and ports, and the link (R425, R429, R438, R449): a reset function's negotiation, bindings and watches are
cleared and its contexts disabled; PERST# takes the link down; released, an enabled port trains; a configuration request is answered,
with retry status before READY, and writes the registers that the interface's rules act on; a read of a control window answers the
requester, behind the port's writes that are held.
Where it rests on the model's reading, see log entries 7, 59, 61 and 106; that a port whose link is down answers nothing rests on
log entry 1. -/
def Obligations.HostResets : Prop :=
  ∀ (p : Fin 2) (f g : Fin 65) (refclk wide : Bool) (x : Nat) (reg : CfgReg) (wr : Option W32) (v : W32) (s : State),
    let h := s.host p
    let others := fun (t : State) => ∀ k, k ≠ p → t.host k = s.host k
    let cleared := fun (g : Fin 65) (t : State) => (∀ k, featureOn t p g k = false) ∧ mwBase t p g = 0 ∧
      (∀ n, n < 16384 → bitOf (funcEntry t p g n 0x164) 31 = false ∧ bitOf (funcEntry t p g n 0x174) 31 = false) ∧
      ∀ c, c < 16384 → ownsCtx s p g c = true → fieldOf t (entryBank c) 0x009 0x104 0 0 = 0 ∧
        ctxOwner t c = p.val + 2 ^ 8
    let plain := fun (g : Fin 65) => mfind s.regs (rkey cfgBank 0x009 0x108) = none ∧
      ∀ o ∈ [0x140, 0x148, 0x14C, 0x164, 0x174], mfind s.regs (rkey cfgBank (funcPage p g) o) = none
    let calm := fun (t : State) => t.mem = s.mem ∧ t.now = s.now ∧ t.rel.logbook = s.rel.logbook
    (f.val ≠ 0 → plain f →
      Runs (.functionLevelReset p f) s (fun t => cleared f t ∧ calm t)) ∧
    (plain g → Runs (.functionLevelReset p 0) s (fun t => cleared g t ∧ calm t) ∧
      Runs (.hotReset p) s (fun t => cleared g t ∧ calm t) ∧
      Runs (.perstAssert p) s (fun t => cleared g t ∧ calm t ∧ (t.host p).perst = true ∧ (t.host p).trained = false ∧
        (t.host p).rate = 0 ∧ (t.host p).width = 0 ∧ (t.host p).numVf = 0 ∧ fnCfg t p g = FnCfg.reset ∧
        windowSize t p 0 = 2 ^ 36 ∧ (g.val ≠ 0 → windowSize t p g = 2 ^ 32)) ∧
      (g.val ≠ 0 → Runs (.vfEnableClear p) s (fun t => cleared g t ∧ calm t ∧ (t.host p).numVf = 0))) ∧
    Runs (.perstRelease p refclk) s (fun t => others t ∧ calm t ∧ (t.host p).perst = false ∧ (t.host p).refclk = refclk ∧
      (t.host p).trained = (h.trained || (decide (2 ≤ s.power.modState) && h.enabled && refclk)) ∧ t.regs = s.regs ∧
      (h.trained = false → 2 ≤ s.power.modState → h.enabled = true → refclk = true → 1 ≤ (t.host p).rate ∧ (t.host p).rate ≤ 6 ∧
        (t.host p).width ∈ [1, 2, 4, 8] ∧ ((t.host p).rate = 6 → (t.host p).flitMode = true))) ∧
    (h.trained = false → Runs (.configurationRequest p f ⟨reg, wr⟩) s (fun t => t = s)) ∧
    (h.trained = true → s.vesper.booting = true ∨ s.vesper.stage < 8 → Runs (.configurationRequest p f ⟨reg, wr⟩) s (fun t =>
      t = { s with out := s.out ++ [.config p f.val true 0] })) ∧
    (h.trained = true → s.vesper.booting = false → 8 ≤ s.vesper.stage →
      (fnLive s p f = false → Runs (.configurationRequest p f ⟨reg, wr⟩) s (fun t =>
        t = { s with out := s.out ++ [.unsupported p f.val] })) ∧
      (fnLive s p f = true →
        (∀ n, cfgValue s p f reg = some n → Runs (.configurationRequest p f ⟨reg, none⟩) s (fun t =>
          t = { s with out := s.out ++ [.config p f.val false n] })) ∧
        (cfgValue s p f reg = none → Runs (.configurationRequest p f ⟨reg, none⟩) s (fun t =>
          ∃ v, t = { s with freeCtr := s.freeCtr + 1, out := s.out ++ [.config p f.val false v] })) ∧
        (reg ≠ .vfEnable → Runs (.configurationRequest p f ⟨reg, (some v)⟩) s (fun t =>
          t = { s with hosts := t.hosts, out := s.out ++ [.config p f.val false 0] } ∧ others t ∧
          (∀ k, k ≠ f → fnCfg t p k = fnCfg s p k) ∧
          (fnCfg t p f).busMaster = (if reg = .busMaster then bitOf v.toNat 0 else (fnCfg s p f).busMaster) ∧
          (fnCfg t p f).msixOn = (if reg = .msixEnable then bitOf v.toNat 0 else (fnCfg s p f).msixOn) ∧
          (fnCfg t p f).msixMask = (if reg = .msixMask then bitOf v.toNat 0 else (fnCfg s p f).msixMask) ∧
          (fnCfg t p f).payload = (if reg = .payload ∧ v.toNat ≤ 2 then v.toNat else (fnCfg s p f).payload) ∧
          (fnCfg t p f).readReq = (if reg = .readRequest ∧ v.toNat ≤ 5 then v.toNat else (fnCfg s p f).readReq) ∧
          (t.host p).barLog = (if reg = .barSize ∧ f.val = 0 ∧ 30 ≤ v.toNat ∧ v.toNat ≤ 42 then v.toNat else h.barLog) ∧
          (t.host p).vfBarLog = (if reg = .vfBarSize ∧ f.val = 0 ∧ 30 ≤ v.toNat ∧ v.toNat ≤ 36 then v.toNat else h.vfBarLog) ∧
          (t.host p).numVf = h.numVf)) ∧
        (f.val = 0 → bitOf v.toNat 0 = true → h.numVf = 0 → Runs (.configurationRequest p f ⟨.vfEnable, (some v)⟩) s (fun t =>
          (t.host p).numVf = h.numVfs ∧ calm t)) ∧
        (f.val = 0 → bitOf v.toNat 0 = false → g.val ≠ 0 → plain g → Runs (.configurationRequest p f ⟨.vfEnable, (some v)⟩) s
          (fun t => (t.host p).numVf = 0 ∧ cleared g t ∧ calm t)))) ∧
    (fnLive s p f = false → x < 0x1000000 → Runs (.controlWindowRead p f x wide) s (fun t =>
      t = { s with out := s.out ++ [.unsupported p f.val] })) ∧
    (fnLive s p f = true → x < 0x1000000 → heldWrites s p = true → Runs (.controlWindowRead p f x wide) s (fun t =>
      t = { s with hosts := t.hosts } ∧ others t ∧ t.host p = { h with windowQ := h.windowQ ++ [ctlAccess f x wide none s.now] })) ∧
    (fnLive s p f = true → heldWrites s p = false → x < 0x9000 → x % 4096 = 0x010 → Runs (.controlWindowRead p f x false) s (fun t =>
      t = { s with out := s.out ++ [.regValue (.func p f) x (rawWord s 0 (x / 4096) 0x010 &&&
        maskOf (fun a => a != .wo) (regAt (x / 4096) 0x010).2)] })) ∧
    (fnLive s p f = true → heldWrites s p = false → x < 0x1000000 → x % 4 ≠ 0 → Runs (.controlWindowRead p f x wide) s (fun t => Logged 0 0 s t ∧ calm t ∧
      t.out = s.out ++ [.regValue (.func p f) x 0]))

/-! ### Boot, debug unlock and power -/

/-- Debug unlock (R458 to R460, R499): a request makes a challenge that lapses; the last token word submits the token, which opens
its scopes or is rejected, the challenge spent either way; three rejections lock; LOCK closes every
scope, the end of a token's lifetime its own, and PGDBG's closing clears DBG; the logbook is erased once under LOGERASE, its standing
entries written again.
Where it rests on the model's reading, see log entries 65 and 78; that nothing changes where nothing is to end rests on log entry
1. -/
def Obligations.DebugUnlock : Prop :=
  ∀ (r : Req) (v : W32) (c : BitVec 256) (due : Nat) (s : State),
    let x := s.vesper
    let ready := { s with vesper := { x with token := mset x.token 23 (BitVec.ofNat 32 v.toNat) } }
    let cause := tokenCause ready
    let scopes := natOfBytes (((tokenBytes ready).drop 20).take 1)
    let minutes := natOfBytes (((tokenBytes ready).drop 22).take 2)
    let calm := fun (t : State) => t.mem = s.mem ∧ t.cores = s.cores
    let undebugged := fun (t : State) => ∀ page, page < 16384 →
        mfind s.regs (rkey cfgBank page 0x008) = none → bitOf (resetOf (regAt page 0x008).2) 2 = false →
        bitOf (rawWord t 0 page 0x008) 2 = false ∧ pageEn t page = pageEn s page
    let closed := fun (t : State) => t.vesper.scopes = 0 ∧ t.vesper.scopeEnds = [] ∧ calm t ∧
      t.vesper.scopesSticky = x.scopesSticky ∧ undebugged t
    let may := scopeOpen s 2 = true ∧ x.eraseUsed = false
    Runs (.dbgReq r) s (fun t => t = { s with vesper := t.vesper } ∧ t.vesper = { x with
      nonces := x.nonces + 1, challenge := some (BitVec.ofNat 256 ((Config.nonce x.nonces).toNat + x.bootCount % 2 ^ 32 * 2 ^ 128),
        s.now + msCycles 600000) }) ∧
    Runs (.dbgLock r) s closed ∧
    (firstEnd x.scopeEnds = some due → Runs .scopeExpire s (fun t => t.now = max s.now due ∧ calm t ∧
      t.vesper.scopesSticky = x.scopesSticky ∧ t.vesper.scopeEnds = x.scopeEnds.filter (fun e => decide (due < e.2)) ∧
      (∀ k, k < 3 → bitOf t.vesper.scopes k = (bitOf x.scopes k && decide (due < mget (due + 1) x.scopeEnds k))) ∧
      (mget (due + 1) x.scopeEnds 1 ≤ due → undebugged t) ∧ (due < mget (due + 1) x.scopeEnds 1 → t.regs = s.regs))) ∧
    (x.scopeEnds = [] → Runs .scopeExpire s (fun t => t = s)) ∧
    (x.challenge = some (c, due) → Runs .challengeExpire s (fun t =>
      t = { s with now := max s.now due, vesper := { x with challenge := none } })) ∧
    (x.challenge = none → Runs .challengeExpire s (fun t => t = s)) ∧
    (cause = 0 → Runs (.tokenSubmit r v) s (fun t => t.vesper.challenge = none ∧ t.vesper.token = [] ∧ Logged vesperPage 4 s t ∧
      t.vesper.scopes = x.scopes ||| scopes ∧ t.vesper.scopesSticky = x.scopesSticky ||| scopes ∧
      (∀ k, k < 3 → mfind t.vesper.scopeEnds k = if bitOf scopes k then
        (if minutes = 0 then none else some (s.now + msCycles (60000 * minutes))) else mfind x.scopeEnds k) ∧
      t.vesper.eraseUsed = (x.eraseUsed && !bitOf scopes 2) ∧ calm t)) ∧
    (cause ≠ 0 → Runs (.tokenSubmit r v) s (fun t => t.vesper.challenge = none ∧ t.vesper.token = [] ∧ Logged vesperPage 5 s t ∧
      t.vesper.scopes = x.scopes ∧ t.vesper.scopeEnds = x.scopeEnds ∧ t.vesper.rejects = min 3 (x.rejects + 1) ∧
      (2 ≤ x.rejects → t.vesper.locked = true) ∧ calm t)) ∧
    (x.locked = true → cause = 6) ∧ (x.locked = false → challengeOf s = none → cause = 1) ∧
    (may → Runs (.dbgErase r) s (fun t => t.rel.logbook = [] ∧ t.rel.nextSeq = 0 ∧
      t.vesper = { x with eraseUsed := true, flash := t.vesper.flash } ∧
      (∀ a, flashByte t a = if 0x4100000 ≤ a ∧ a < 0x5100000 then 0xFF else flashByte s a) ∧
      t.rel.toWrite = s.rel.toWrite ++ (s.rel.logbook ++ s.rel.keptEntries).filter (fun e => e.kind == 3 || e.kind == 4) ∧
      calm t)) ∧
    (¬ may → Runs (.dbgErase r) s (fun t => Logged 0 5 s t ∧ t.rel.logbook = s.rel.logbook ∧ t.vesper = x ∧ calm t))

/-- The boot (R443 to R453, R497, R512): power good starts it; each stage acts only in its turn, from GNOMON on not in a trip, and
leads to the next, to the other slot, or to a stop, by what it checks; ROM reads the boot state from the newer valid copy and writes
the other one; CFG loads the record and the almanac; LOG reads the entries whose CRC holds; GNOMON lets failed recalibrations fall
back and records a plan in the almanac; READY confirms a trial slot; a failed slot takes the ports down.
Where it rests on the model's reading, see log entries 9, 63, 64, 68, 107 and 108; that a stage out of its turn changes nothing rests
on log entry 1. -/
def Obligations.BootStages : Prop :=
  ∀ (array : List Byte) (straps : BitVec 3) (failed : List Nat) (p : Fin 2) (f : Fin 65) (s : State),
    let x := s.vesper
    let at' := fun (n : Nat) => x.booting = true ∧ x.stage = n ∧ (6 ≤ n → s.power.tripped = false)
    let goes := fun (n : Nat) (t : State) => t.vesper.booting = true ∧ t.vesper.stage = n
    let flash := fun (t : State) => t.vesper.flash = x.flash
    let bootOnly := fun (t : State) => (∀ a, 0x10000 ≤ a → flashByte t a = flashByte s a) ∧
      flashBytes t (bootAt (t.vesper.bootSeq % 2)) 16 = bootBytes t.vesper
    let fails := fun (t : State) => goes 0 t ∧ t.vesper.fallback = true ∧ Logged vesperPage 7 s t ∧ bootOnly t ∧
      t.vesper.bootSeq = x.bootSeq + 1 ∧ (∀ k, k ∈ t.vesper.failed ↔ k ∈ x.failed ∨ k = x.slot) ∧
      (t.host p).enabled = false ∧ (t.host p).trained = false
    let still := fun (cmd : Instr) (n : Nat) => ¬ at' n → Runs cmd s (fun t => t = s)
    let good := s.power.modState = 0 ∧ s.power.modEn = true ∧ 40000 ≤ s.power.vin
    let y := (loadBoot s).vesper
    let word := fun (k i : Nat) => natOfBytes (flashBytes s (bootAt k + 4 * i) 4)
    let slot := if y.failed.contains y.prefSlot then 1 - y.prefSlot else y.prefSlot
    let lost := y.failed.contains 0 && y.failed.contains 1
    let field := fun (k b n : Nat) => natOfBytes (flashBytes s (recordAt k + b) n)
    (good → Runs .powerGood s (fun t => goes 0 t ∧ t.power = { s.power with modState := 1 } ∧
      t.vesper.goodAt = s.now ∧ flash t)) ∧
    (¬ good → Runs .powerGood s (fun t => t = s)) ∧
    (∀ k, bootCopy s = some k → y.bootSeq = word k 0 ∧ y.bootCount = word k 1 ∧ y.prefSlot = bitsOf (word k 2) 0 0 ∧
      y.trialFlag = bitOf (word k 2) 1 ∧ ∀ i, i < 2 → (i ∈ y.failed ↔ bitOf (word k 2) (2 + i) = true)) ∧
    (bootCopy s = none → y.bootSeq = 0 ∧ y.bootCount = 0 ∧ y.prefSlot = 0 ∧ y.trialFlag = false ∧ y.failed = []) ∧
    (at' 0 → Runs .stageRom s (fun t => t.vesper.bootCount = y.bootCount + 1 ∧ t.vesper.bootSeq = y.bootSeq + 1 ∧ bootOnly t ∧
      t.vesper.slot = slot ∧ t.vesper.trial = (y.trialFlag && slot == y.prefSlot) ∧ t.vesper.failed = y.failed ∧
      t.vesper.recovery = lost ∧ t.vesper.booting = !lost ∧ t.vesper.stage = (if lost then 0 else 1) ∧
      t.vesper.cfgOk = false ∧ t.vesper.idOk = false ∧
      t.vesper.scopes = 0 ∧ t.vesper.rejects = 0 ∧ t.vesper.locked = false ∧ t.power.pwrgood = true ∧ pageEn t 0 = true)) ∧
    (at' 1 → Runs (.stagePuf array) s (fun t => goes 2 t ∧ t.vesper.seed = reconstruct s array ∧ flash t ∧
      t.vesper.idOk = (reconstruct s array).isSome ∧ (reconstruct s array = none → Logged vesperPage 2 s t))) ∧
    (at' 2 → imageCause s x.slot 1 = 0 → Runs (.stageVimg straps) s (fun t => goes 3 t ∧ t.vesper.smbAddr = 0x60 + straps.toNat ∧
      pageEn t vesperPage = true ∧ flash t)) ∧
    (at' 2 → imageCause s x.slot 1 ≠ 0 → Runs (.stageVimg straps) s (fun t => fails t ∧ Logged vesperPage 0 s t)) ∧
    (∀ k, at' 3 → chooseRecord s = some k → Runs .stageCfg s (fun t => goes 4 t ∧ t.vesper.cfgOk = true ∧
      t.vesper.cfgCopy = k ∧ flash t ∧ rawWord t cfgBank hostPage 0x108 = field k 65 1 % 4 ∧
      t.power.fmax = min (field k 56 2) 1750 ∧
      rawWord t cfgBank (funcPage p f) 0x100 =
        (if f.val = 0 then Nat.land (field k 84 4) 0x7F else Nat.land (field k 116 4) 0x73) ∧
      (∀ i, lastPlace s = some i → t.power.alSeq = almanacNat s i 0 4 ∧ t.power.hours = almanacNat s i 8 4) ∧
      (lastPlace s = none → t.power.alSeq = 0 ∧ t.power.hours = 0))) ∧
    (at' 3 → chooseRecord s = none → Runs .stageCfg s (fun t => t.vesper.booting = false ∧ t.vesper.stopped = true ∧
      Logged vesperPage 1 s t ∧ flash t)) ∧
    (at' 4 → Runs .stageLog s (fun t => goes 5 t ∧ flash t ∧
      (∀ e ∈ t.rel.logbook, ∃ n, n < 524288 ∧ flashCrcOk s (entryAt n) 32 = true ∧ e = readEntry s n) ∧
      (∀ n ∈ flashSlots s 0x4100000 32 524288, n < t.rel.nextSeq ∧
        (flashCrcOk s (entryAt n) 32 = true → readEntry s n ∈ t.rel.logbook)) ∧
      ∀ e ∈ t.rel.logbook, (e.kind = 3 → withdrawn t e.cls e.index = true) ∧
        (e.kind = 4 → e.cls = 1 → e.unit ∈ t.mig.badFrames) ∧ (e.kind = 4 → e.cls = 2 → e.unit ∈ t.mig.badExtents) ∧
        (e.kind = 7 → t.rel.out = true))) ∧
    (at' 5 → imageCause s x.slot 2 = 0 → imageCause s x.slot 3 = 0 → Runs .stageImg s (fun t =>
      t = { s with vesper := { x with stage := 6 } })) ∧
    (at' 5 → imageCause s x.slot 2 ≠ 0 ∨ imageCause s x.slot 3 ≠ 0 → Runs .stageImg s fails) ∧
    (at' 6 → Runs (.stageGnomon failed) s (fun t => goes 7 t ∧ t.power.modState = 2 ∧ pageEn t memPage = true ∧
      (∀ a, a < 0x5100000 → flashByte t a = flashByte s a) ∧ t.power.alSeq = s.power.alSeq + 1 ∧
      flashBytes t (almanacAt (nextPlace s)) 4 = bytesOfNat 4 (s.power.alSeq + 1) ∧
      flashCrcOk t (almanacAt (nextPlace s)) 256 = true ∧
      (∀ k, k ∈ t.vesper.trimFell ↔ k ∈ failed ∧ recalibrates k = true) ∧
      ((∃ k ∈ failed, recalibrates k = true) → bitOf (rawWord t 0 vesperPage 0x010) 3 = true))) ∧
    (at' 7 → Runs .stageHost s (fun t => goes 8 t ∧ flash t ∧ (t.host 0).enabled = true ∧ (t.host 1).enabled = true ∧
      t.regs = s.regs)) ∧
    (at' 8 → Runs .stageReady s (fun t => t.vesper.booting = false ∧ t.vesper.stage = 8 ∧
      (x.trial = true → t.vesper.trialFlag = false ∧ bootOnly t) ∧ (x.trial = false → t.vesper.floor = x.floor ∧
        t.vesper.revoked = x.revoked ∧ flash t))) ∧
    still .stageRom 0 ∧ still (.stagePuf array) 1 ∧ still (.stageVimg straps) 2 ∧ still .stageCfg 3 ∧ still .stageLog 4 ∧
    still .stageImg 5 ∧ still (.stageGnomon failed) 6 ∧ still .stageHost 7 ∧ still .stageReady 8 ∧
    (x.booting = true ∨ x.stopped = true → x.trial = true → Runs .trialTimeout s (fun t => fails t ∧
      t.now = max s.now (x.goodAt + msCycles 2000))) ∧
    ((x.booting = false ∧ x.stopped = false) ∨ x.trial = false → Runs .trialTimeout s (fun t => t = s))

/-- Power off and on (R483, R489, R512, R513): losing MOD_EN or the input leaves only what the fuses and the configuration flash
hold; a loss through 36.0 V trips first, which answers what Vesper held, before the loss ends the trip's work; a rise within 100 ms
of a fall takes effect after it; RESTART completes a restart, and a boot that the trip met in STANDBY goes on.
Where it rests on the model's reading, see log entries 68 and 73; a clause where nothing changes because the occasion is absent rests
on log entry 1. -/
def Obligations.PowerCycle : Prop :=
  ∀ (mv : Nat) (ref : Bool) (s : State),
    let p := s.power
    let off := fun (t : State) => t.mem = [] ∧ t.regs = [] ∧ t.objs = [] ∧ t.cores = State.reset.cores ∧
      t.chans = State.reset.chans ∧ t.mig = Mig.reset ∧ t.power.modState = 0 ∧ t.power.meridian = 0 ∧ t.power.fellAt = some t.now ∧
      t.vesper.flash = s.vesper.flash ∧ t.vesper.revoked = s.vesper.revoked ∧ t.vesper.floor = s.vesper.floor ∧
      t.vesper.scopes = 0 ∧ t.vesper.stage = 0 ∧ t.vesper.booting = false ∧ t.rel = State.reset.rel ∧ t.now = s.now ∧
      ∀ q, (t.host q).trained = false ∧ (t.host q).perst = (s.host q).perst ∧ (t.host q).refclk = (s.host q).refclk
    let rise := fun (t : State) => t.now = (match p.fellAt with
      | some n => max s.now (n + msCycles 100)
      | none => s.now) ∧ t = { s with now := t.now, power := t.power }
    let trips := p.modState ≠ 0 ∧ (p.tripped = false ∨ p.restarting = true)
    let n := if s.vesper.stage < 7 then 1 else 2
    (p.modEn = true → Runs .modEnFall s (fun t => off t ∧ t.out = s.out ∧ t.power.modEn = false ∧ t.power.vin = p.vin)) ∧
    (p.modEn = false → Runs .modEnFall s (fun t => t = s)) ∧
    (p.modEn = false → Runs (.modEnRise ⟨mv, ref⟩) s (fun t => rise t ∧ t.power = { p with modEn := true, vin := mv, refclk156 := ref })) ∧
    (p.modEn = true → Runs (.modEnRise ⟨mv, ref⟩) s (fun t => t = s)) ∧
    Runs (.inputPowerLoss false) s (fun t => off t ∧ t.out = s.out ∧ t.power.modEn = p.modEn ∧ t.power.vin = 0) ∧
    Runs (.inputPowerLoss true) s (fun t => off t ∧ t.power.modEn = p.modEn ∧ t.power.vin = 0 ∧
      (trips → t.out = (dropHeld s).out) ∧ (¬ trips → t.out = s.out)) ∧
    (p.modState = 0 → p.modEn = true → Runs (.inputPowerReturn mv) s (fun t => rise t ∧ t.power = { p with vin := mv })) ∧
    (p.modState = 0 → p.modEn = false → Runs (.inputPowerReturn mv) s (fun t => t = { s with power := { p with vin := mv } })) ∧
    (p.modState ≠ 0 → Runs (.inputPowerReturn mv) s (fun t => t = s)) ∧
    (p.restarting = true → (∀ q, (s.host q).windowQ = []) → s.mig.waiters = [] → Runs .restartDone s (fun t =>
      t = { s with power := t.power, hosts := t.hosts, freeCtr := t.freeCtr } ∧
      t.power = { p with restarting := false, tripped := false, modState := n } ∧
      ∀ q, (t.host q).trained = ((s.host q).trained ||
        (n == 2 && (s.host q).enabled && !(s.host q).perst && (s.host q).refclk)))) ∧
    (p.restarting = false → Runs .restartDone s (fun t => t = s))

/-- Meridian's power states (R335, R470 to R473, R489, R497): a start needs Gnomon and REFCLK156, a stop a quiet Meridian, MOFF no
frame in use; ports go DOWN on leaving RUN; the core clock stops with Meridian; OFF keeps nothing of Meridian; RUN enables its pages,
runs the clock at FMAX, or at 875 MHz at most while the input is low, and after OFF takes the planned stack rates; idle cores are
gated, and woken for an eligible slot or a test that is due.
Where it rests on the model's reading, see log entries 68 (RESTART outside a trip changes nothing), 69, 70 (the clock at RUN) and 72; a
clause where nothing changes because the occasion is absent rests on log entry 1. -/
def Obligations.MeridianPower : Prop :=
  ∀ (r : Req) (c : CoreId) (replicas : Vector (Vector Nat 32) 4) (eyes : Vector Nat 8) (s : State),
    let p := s.power
    let skip := fun (t : State) => Logged powerPage 7 s t ∧ t.power = p ∧ t.mem = s.mem ∧ t.cores = s.cores
    let down := fun (t : State) => ∀ q, (portOf t q).state = 0
    let left := fun (dest : Nat) (t : State) => t.power = { p with meridian := 3, stopTo := dest, modState := min p.modState 2 } ∧
      t.mem = s.mem ∧ t.cores = s.cores
    let quiet := quietMeridian s = true
    let empty := s.mig.pages.all (fun x => x.2.frame.isNone) = true
    let hot := sensors s (fun n t => decide (tripLimit n - 10 ≤ t)) ≠ []
    let idle := p.meridian = 2 ∧ fieldOf s 0 powerPage 0x114 15 0 ≠ 0 ∧ (s.core c).sched.task = none ∧
      (s.core c).sched.fieldTest = false ∧ eligibleSlots s c = [] ∧ (s.core c).sched.waking = false
    let wakes := p.meridian = 2 ∧ c.val ∈ p.gated ∧ withdrawn s 0 c.val = false ∧
      (eligibleSlots s c ≠ [] ∨ mget 0 s.rel.ftState c.val = 1)
    let volts := fun (f : Nat) => if f = 0 then [] else allCores.map (coreVolt s f)
    let calmPorts := ∀ q, (s.host q).windowQ = []
    (p.modState = 2 → p.tripped = false → p.meridian = 0 ∨ p.meridian = 4 →
      (p.refclk156 = true → Runs (.mstart r) s (fun t =>
        t = { s with power := { p with meridian := 1, fromOff := p.meridian == 0 } })) ∧
      (p.refclk156 = false → Runs (.mstart r) s skip)) ∧
    (p.modState = 2 → p.tripped = false → p.meridian = 3 → Runs (.mstart r) s (fun t =>
      t = { s with power := { p with startAfter := true } })) ∧
    (p.modState < 2 ∨ p.tripped = true → Runs (.mstart r) s skip) ∧
    (p.meridian = 2 → quiet → Runs (.mstop r) s (fun t => left 4 t ∧ down t) ∧
      (empty → Runs (.moff r) s (fun t => left 0 t ∧ down t))) ∧
    (p.meridian = 4 → quiet → empty → Runs (.moff r) s (left 0)) ∧
    (p.meridian ≠ 2 ∨ ¬ quiet → Runs (.mstop r) s skip) ∧
    ((p.meridian ≠ 2 ∧ p.meridian ≠ 4) ∨ ¬ quiet ∨ ¬ empty → Runs (.moff r) s skip) ∧
    (p.tripped = false → Runs (.restart r) s (fun t => t = s)) ∧
    (p.tripped = true → p.rewriting = true ∨ p.vin < 40000 ∨ hot → Runs (.restart r) s skip) ∧
    (p.tripped = true → ¬ (p.rewriting = true ∨ p.vin < 40000 ∨ hot) → Runs (.restart r) s (fun t =>
      t = { s with power := { p with restarting := true } })) ∧
    (p.meridian = 3 → p.stopTo = 4 → p.startAfter = false → Runs .meridianStopDone s (fun t =>
      t.power = { p with meridian := 4, fcore := 0, volts := [] } ∧ t.mem = s.mem ∧ t.cores = s.cores ∧ down t)) ∧
    (p.meridian = 3 → p.stopTo = 0 → p.startAfter = false → s.mig.waiters = [] → Runs .meridianStopDone s (fun t =>
      t.power = { p with meridian := 0, fcore := 0, volts := [], gated := p.gated.filter (fun c => withdrawn s 0 c) } ∧ t.cores = State.reset.cores ∧
      t.chans = State.reset.chans ∧ t.cal = [] ∧
      t.red = Red.reset ∧ t.ick = Ick.reset ∧ t.txn = Txn.reset ∧ t.objs = s.objs ∧ t.mig.waiters = [] ∧
      ∀ a, memGet t.mem a = if winOf a = .unified then memGet s.mem a else 0)) ∧
    (p.meridian = 3 → p.stopTo = 4 → p.startAfter = true → p.modState = 2 → p.tripped = false → p.refclk156 = true →
      Runs .meridianStopDone s (fun t => t.power = { p with meridian := 1, fromOff := false, startAfter := false, fcore := 0, volts := [] } ∧
        down t)) ∧
    (p.meridian ≠ 3 → Runs .meridianStopDone s (fun t => t = s)) ∧
    (p.meridian = 1 → s.vesper.held = [] → calmPorts → Runs (.meridianStartDone replicas eyes) s (fun t =>
      t.power.meridian = 2 ∧ t.power.modState = 3 ∧ t.power.planned = true ∧
      (∀ n ∈ meridianPages, n ≠ ickPage → pageEn t n = true) ∧ (pageEn t ickPage = pageEn s ickPage) ∧
      (s.mig.waiters = [] → t.mem = s.mem) ∧ t.power.rates = (if p.fromOff then p.ratePlan else p.rates) ∧
      (p.planned = true → t.vesper.flash = s.vesper.flash ∧ t.power.fcore = (if p.vinLow then min 875 p.fmax else p.fmax) ∧
        t.power.volts = volts t.power.fcore) ∧
      (p.planned = false → t.power.alSeq = p.alSeq + 1 ∧ Logged powerPage 5 s t))) ∧
    (p.meridian ≠ 1 → Runs (.meridianStartDone replicas eyes) s (fun t => t = s)) ∧
    (idle → Runs (.coreGate c) s (fun t => t = { s with power := { p with gated := t.power.gated } } ∧
      ∀ k, k ∈ t.power.gated ↔ k ∈ p.gated ∨ k = c.val)) ∧
    (¬ idle → Runs (.coreGate c) s (fun t => t = s)) ∧
    (wakes → Runs (.coreWake c) s (fun t => t = { s with cores := t.cores } ∧ CoresKept c s t ∧
      t.core c = { s.core c with sched := { (s.core c).sched with waking := true } })) ∧
    (¬ wakes → Runs (.coreWake c) s (fun t => t = s)) ∧
    ((s.core c).sched.waking = true → calmPorts → s.mig.waiters = [] → Runs (.coreWakeDone c) s (fun t => CoresKept c s t ∧
      t.core c = { s.core c with sched := { (s.core c).sched with waking := false } } ∧
      (∀ k, k ∈ t.power.gated ↔ k ∈ p.gated ∧ k ≠ c.val) ∧ t.mem = s.mem)) ∧
    ((s.core c).sched.waking = false → Runs (.coreWakeDone c) s (fun t => t = s))

/-- Measurements, clocks, trips and plans (R475, R480 to R488, R491): an input or temperature past its trip limit takes Meridian's
power, disables every context and charges class 6; the clock falls by steps, is held while clamped or low, and rises after ten clear
intervals, each core at its voltage for it, with THROTTLE when it leaves FMAX; the rewriting loses dirty tiles as poison; a plan keeps
the replicas and bounds guard bands and clock.
Where it rests on the model's reading, see log entries 68, 70 and 71; a clause where nothing changes because the occasion is absent
rests on log entry 1. -/
def Obligations.PowerMeasures : Prop :=
  ∀ (r : Req) (mv amps modW merW : Nat) (temps : Vector Int 16) (replicas : Vector (Vector Nat 32) 4) (eyes : Vector Nat 8)
    (mer ref : Bool) (v : W32) (s : State),
    let p := s.power
    let low := mv < 39000 ∨ (p.vinLow = true ∧ mv < 40000)
    let trips := fun (sensor : Nat) (t : State) => t.power.tripped = true ∧ t.power.tripSensor = sensor ∧
      t.power.rewriting = true ∧ t.power.meridian = 0 ∧ t.power.modState = max 1 (min 2 p.modState) ∧ t.power.restarting = false ∧
      t.power.fcore = 0 ∧ t.power.volts = [] ∧
      t.cores = State.reset.cores ∧ bitOf (classBits t s.bnd.step) 6 = true ∧
      (mfind s.regs (rkey cfgBank 0x009 0x104) = none → ∀ c, c < 16384 → fieldOf t (entryBank c) 0x009 0x104 0 0 = 0) ∧
      ∀ a, memGet t.mem a = if winOf a = .unified then memGet s.mem a else 0
    let read := { s with power := { p with
      temps := temps.toList, modW := modW, merW := merW, hottest := hottestOf temps.toList p.hottest } }
    let may := p.modState ≠ 0 ∧ (p.tripped = false ∨ p.restarting = true) ∧ s.mig.waiters = []
    let volts := fun (f : Nat) => if f = 0 then [] else allCores.map (coreVolt s f)
    let limit := if mer then 1050 else 1400
    let off := if mer then 0x10C else 0x108
    let planned := fun (t : State) => t.power.alSeq = p.alSeq + 1 ∧ Logged powerPage 5 s t ∧
      t.power.replicas = replicas.toList.map (fun x => x.toList) ∧ t.power.fcore ≤ t.power.fmax ∧ t.power.fmax ≤ clockLimit s ∧ t.mem = s.mem ∧ t.cores = s.cores ∧
      ∀ c : CoreId, 20 ≤ mget 0 t.power.guardMv c.val ∧ mget 0 t.power.guardMv c.val ≤ 60
    let runs := if allClear s then p.clearRuns + 1 else 0
    (p.modState = 0 →
      Runs (.vinSample ⟨mv, ref⟩) s (fun t => t = { s with power := { p with vin := mv, refclk156 := ref } }) ∧
      Runs (.sensorSample temps modW merW) s (fun t => t = s)) ∧
    (p.modState ≠ 0 → 36000 ≤ mv → Runs (.vinSample ⟨mv, ref⟩) s (fun t => t.mem = s.mem ∧ t.cores = s.cores ∧
      t.power.vin = mv ∧ t.power.refclk156 = ref ∧ t.power.vin36 = 0 ∧ (t.power.vinLow = true ↔ low) ∧ t.power.meridian = p.meridian ∧
      t.power.fcore = (if t.power.vinLow then min p.fcore 875 else p.fcore) ∧
      (low → p.vinLow = false → Logged powerPage 3 s t) ∧
      (low → 875 < p.fcore → p.fcore = p.fmax → Logged powerPage 0 s t))) ∧
    (may → mv < 36000 → 2 ≤ p.vin36 → Runs (.vinSample ⟨mv, ref⟩) s (trips 17)) ∧
    (p.modState ≠ 0 → sensors read (fun n t => decide (tripLimit n ≤ t)) = [] →
      Runs (.sensorSample temps modW merW) s (fun t => t = read)) ∧
    (∀ n l, may → sensors read (fun n t => decide (tripLimit n ≤ t)) = n :: l →
      Runs (.sensorSample temps modW merW) s (trips n)) ∧
    (p.meridian = 2 → Runs .clockStep s (fun t => t.mem = s.mem ∧ t.cores = s.cores ∧ t.power.clearRuns = runs ∧
      t.power.fcore = (if p.clamped = true ∨ p.vinLow = true then min p.fcore 875
        else if firstOver s ≠ none then max (p.fcore - 25) 875
        else if 10 ≤ runs then min (p.fcore + 25) p.fmax else p.fcore) ∧
      t.power.volts = volts t.power.fcore ∧
      rawPair t 0 powerPage 0x138 = (if p.fcore < p.fmax then min (rawPair s 0 powerPage 0x138 + 1) (2 ^ 64 - 1)
        else rawPair s 0 powerPage 0x138) ∧
      (p.fcore = p.fmax → t.power.fcore < p.fmax → Logged powerPage 0 s t))) ∧
    (p.meridian ≠ 2 → Runs .clockStep s (fun t => t = s) ∧ Runs (.clamp amps) s (fun t => t = s)) ∧
    (p.meridian = 2 → fieldOf s 0 powerPage 0x110 11 0 < amps → Runs (.clamp amps) s (fun t => Logged powerPage 1 s t ∧
      t.power = { p with clamped := true, clampAt := s.now, fcore := min p.fcore 875,
                         volts := if p.fcore ≤ 875 then p.volts else volts 875 } ∧
      (875 < p.fcore → p.fcore = p.fmax → Logged powerPage 0 s t) ∧ t.mem = s.mem ∧ t.cores = s.cores)) ∧
    (amps ≤ fieldOf s 0 powerPage 0x110 11 0 → Runs (.clamp amps) s (fun t => t = s)) ∧
    (p.clamped = true → Runs .clampEnd s (fun t =>
      t = { s with now := max s.now (p.clampAt + msCycles 1), power := { p with clamped := false } })) ∧
    (p.clamped = false → Runs .clampEnd s (fun t => t = s)) ∧
    (2 ≤ p.modState → Runs .hourTick s (fun t => t = { s with power := { p with
      hours := p.hours + 1, planMin := p.planMin - 60 } }) ∧ Runs (.almReq r replicas eyes) s planned ∧
      (p.planMin = 0 → Runs (.periodicPlan replicas eyes) s (fun t => planned t ∧ t.power.planMin = 1440))) ∧
    (p.modState < 2 → Runs .hourTick s (fun t => t = s) ∧ Runs (.almReq r replicas eyes) s (fun t => t = s)) ∧
    (p.modState < 2 ∨ p.planMin ≠ 0 → Runs (.periodicPlan replicas eyes) s (fun t => t = s)) ∧
    (bitsOf v.toNat 10 0 ≤ limit → Runs (.pwrLimitWrite r mer v) s (fun t => t = { s with regs := t.regs } ∧
      fieldOf t 0 powerPage off 10 0 = bitsOf v.toNat 10 0)) ∧
    (limit < bitsOf v.toNat 10 0 → Runs (.pwrLimitWrite r mer v) s (fun t => Logged powerPage 7 s t ∧ t.power = p ∧
      rawWord t 0 powerPage off = rawWord s 0 powerPage off ∧ t.mem = s.mem)) ∧
    (p.rewriting = true → Runs .tileTableRewriteDone s (fun t => t.power = { p with rewriting := false, modState := 1 } ∧
      t.mig.faults = [] ∧ t.mig.waiters = s.mig.waiters ∧ bitOf (rawWord t 0 powerPage 0x010) 6 = true ∧ (∀ x ∈ t.mig.pages, x.2.frame = none ∧ x.2.moving = 0) ∧
      (∀ q, (t.host q).trained = false ∧ (t.host q).rate = 0) ∧
      (∀ k, condOf t k = if condOf s k = .zero then .zero else .low) ∧
      (∀ a, memGet t.mem a = if condOf s (a / 4096) = .dirty then 0 else memGet s.mem a) ∧
      (∀ k, condOf s k = .dirty → ∀ a, a / 4096 = k → poisoned t a 1 = true) ∧
      (p.tripSensor = 17 → Logged powerPage 3 s t) ∧ (p.tripSensor ≠ 17 → Logged powerPage 2 s t))) ∧
    (p.rewriting = false → Runs .tileTableRewriteDone s (fun t => t = s))

/-! ### Vesper's network -/

/-- Attestation (R455 to R457): each SPDM request in its place in the connection is answered, out of place answered with an error,
and the connection advances by version, capabilities and algorithms; a signature needs the identity; discovery names the
two protocols. A message's body is the DMTF form of what is answered (log entry 13), in the packets of its path (log entry 109).
Where it rests on the model's reading, see log entry 66; that a path that does not serve answers nothing rests on log entry 1. -/
def Obligations.AttestationEffects : Prop :=
  ∀ (path : Path) (p : Fin 2) (sm2 sm3 sign : Bool) (slot off len index code token : Nat) (ucode : BitVec 8)
    (nonce seed : BitVec 256) (s : State),
    let serves := spdmServes s path = true
    let st := spdmState s path
    let told := fun (k : Nat) (args : List Nat) (t : State) => t.out = s.out ++ [letter s path k (Config.standardBody k args)]
    let only := fun (k : Nat) (args : List Nat) (t : State) =>
      t = { s with out := s.out ++ [letter s path k (Config.standardBody k args)] }
    let moves := fun (n k : Nat) (args : List Nat) (t : State) => told k args t ∧ spdmState t path = n ∧
      (∀ q, q ≠ path → spdmState t q = spdmState s q) ∧
      t = { s with out := t.out, vesper := { s.vesper with spdm := t.vesper.spdm } }
    let signs := fun (k : Nat) (t : State) => (∃ args, told k args t) ∧
      t = { s with out := t.out, vesper := { s.vesper with nonces := s.vesper.nonces + 1 } }
    let needs := fun (n : Nat) (cmd : Instr) => serves → st < n → Runs cmd s (only 0x57F [4])
    (serves → Runs (.spdmGetVersion path) s (moves 1 0x504 [0x12]) ∧
      Runs (.spdmRespondIfReady path code token) s (only 0x57F [4]) ∧
      Runs (.spdmUnsupported path ucode) s (only 0x57F [7]) ∧
      (1 ≤ st → Runs (.spdmGetCapabilities path) s (moves 2 0x561 [1, 1, 2])) ∧
      (2 ≤ st → sm2 = true ∧ sm3 = true →
        Runs (.spdmNegotiateAlgorithms path sm2 sm3) s (moves 3 0x563 [1, 1])) ∧
      (2 ≤ st → sm2 = false ∨ sm3 = false → Runs (.spdmNegotiateAlgorithms path sm2 sm3) s (only 0x57F [1])) ∧
      (3 ≤ st →
        Runs (.spdmGetDigests path) s (only 0x501 [identityArea s]) ∧
        (slot = 0 → Runs (.spdmGetCertificate path slot off len) s (only 0x502 [off, min len 1024, identityArea s]) ∧
          (s.vesper.seed = some seed → Runs (.spdmChallenge path slot nonce) s (signs 0x503)) ∧
          (s.vesper.seed = none → Runs (.spdmChallenge path slot nonce) s (only 0x57F [5]))) ∧
        (slot ≠ 0 → Runs (.spdmGetCertificate path slot off len) s (only 0x57F [1]) ∧
          Runs (.spdmChallenge path slot nonce) s (only 0x57F [1])) ∧
        (1 ≤ index → index ≤ 8 → sign = false →
          Runs (.spdmGetMeasurements path index nonce sign) s (only 0x560 [index, 8, index, measurement s index])) ∧
        (1 ≤ index → index ≤ 8 → sign = true → s.vesper.seed = some seed →
          Runs (.spdmGetMeasurements path index nonce sign) s (signs 0x560)) ∧
        (8 < index → index ≠ 0xFF → Runs (.spdmGetMeasurements path index nonce sign) s (only 0x57F [1])))) ∧
    needs 1 (.spdmGetCapabilities path) ∧ needs 2 (.spdmNegotiateAlgorithms path sm2 sm3) ∧ needs 3 (.spdmGetDigests path) ∧
    needs 3 (.spdmGetCertificate path slot off len) ∧ needs 3 (.spdmChallenge path slot nonce) ∧
    needs 3 (.spdmGetMeasurements path index nonce sign) ∧
    (¬ serves → ∀ cmd ∈ [Instr.spdmGetVersion path, .spdmGetCapabilities path, .spdmNegotiateAlgorithms path sm2 sm3,
      .spdmGetDigests path, .spdmGetCertificate path slot off len, .spdmChallenge path slot nonce,
      .spdmGetMeasurements path index nonce sign, .spdmRespondIfReady path code token, .spdmUnsupported path ucode],
      Runs cmd s (fun t => t = s)) ∧
    (spdmServes s (.doe p) = true → Runs (.doeDiscovery p index) s (fun t => t = { s with out := s.out ++ [letter s (.doe p) 0
      (if index = 0 then [1, 0, 0, 1] else if index = 1 then [1, 0, 1, 0] else [0xFF, 0xFF, 0, 0])] }))

/-- The management network (R461 to R464, R480): packets of the right form, port or address and message type are taken, ARP, echo and DHCP answered, MCTP control
and PLDM requests answered with what they set or ask, registers read and written as Vesper; a path that does not serve
answers nothing; an answer leaves from Vesper's own port or address in packets within the limits.
Where it rests on the model's reading, see log entries 13, 66, 67 and 109; that a path that does not serve answers nothing rests on
log entry 1. -/
def Obligations.ManagementEffects : Prop :=
  ∀ (path : Path) (data : List Byte) (port : BitVec 16) (addr : BitVec 7) (ip : W32) (b : Byte) (ty id reg : Nat) (v : W32)
    (s : State),
    let x := s.vesper
    let serves := mctpServes s path = true
    let pldm := pldmServes s path = true
    let own := etherUp s = true ∧ ip = ownIp s
    let dhcp := etherUp s = true ∧ bitOf (rawWord s 0 vesperPage 0x1A0) 1 = true
    let kind := fun (d : List Byte) => bitOf (d.getD 3 0).toNat 7 = true →
      (d.getD 4 0).toNat % 128 ∈ [0x00, 0x01, 0x05, 0x7F]
    let udp := etherUp s = true ∧ port.toNat = bitsOf (rawWord s 0 vesperPage 0x1A8) 15 0 ∧ data.take 4 = [1, 0, 0, 0] ∧
      data.length ≤ 1028 ∧ kind (data.drop 4)
    let smb := mctpServes s .smbus = true ∧ data.length ≤ 64 ∧ kind data ∧
      (if x.smbAddr = 0 then 0x60 ≤ addr.toNat ∧ addr.toNat < 0x68 else addr.toNat = x.smbAddr)
    let frame := fun (k : Nat) (d : List Byte) (t : State) => t = { s with out := s.out ++ [.ethernet k d] }
    let out := fun (k : Nat) (args : List Nat) => s.out ++ [letter s path k (Config.standardBody k args)]
    let told := fun (k : Nat) (args : List Nat) (t : State) => t = { s with out := out k args }
    let known := ty = 0 ∨ ty = 2 ∨ ty = 5
    let inRegs := 0xF0000000000 ≤ reg ∧ reg < 0xF0001000000
    (udp → Runs (.mctpDatagram ⟨port, data⟩) s (fun t =>
      t = { s with vesper := { x with rx := x.rx ++ [(.ethernet, data.drop 4)] } })) ∧
    (¬ udp → Runs (.mctpDatagram ⟨port, data⟩) s (fun t => t = s)) ∧
    (smb → Runs (.smbusPacket ⟨addr, data⟩) s (fun t => t = { s with vesper := { x with rx := x.rx ++ [(.smbus, data)] } })) ∧
    (¬ smb → Runs (.smbusPacket ⟨addr, data⟩) s (fun t => t = s)) ∧
    (∀ k body, letter s .ethernet k body = .mgmt .ethernet k (bitsOf (rawWord s 0 vesperPage 0x1A8) 15 0)
        ((chunks 1024 body.length body).map ([1, 0, 0, 0] ++ ·)) ∧
      letter s .smbus k body = .mgmt .smbus k x.smbAddr (chunks 64 body.length body)) ∧
    (own → Runs (.arpRequest ip) s (frame 1 (macBytes s ++ bytesOfNat 4 ip.toNat)) ∧ Runs (.icmpEcho ip data) s (frame 2 data)) ∧
    (¬ own → Runs (.arpRequest ip) s (fun t => t = s) ∧ Runs (.icmpEcho ip data) s (fun t => t = s)) ∧
    (dhcp → Runs (.dhcpExchange ip) s (fun t => t = { s with
      vesper := { x with ip := ip }, out := s.out ++ [.ethernet 3 (macBytes s ++ bytesOfNat 4 ip.toNat)] } ∧ ownIp t = ip)) ∧
    (¬ dhcp → Runs (.dhcpExchange ip) s (fun t => t = s)) ∧
    (serves →
      (b ≠ 0 → b ≠ 0xFF → Runs (.setEndpointId path b) s (fun t =>
        t = { s with vesper := { x with eid := b.toNat }, out := out 0x001 [0, b.toNat] })) ∧
      (b = 0 ∨ b = 0xFF → Runs (.setEndpointId path b) s (told 0x001 [2, x.eid])) ∧
      Runs (.getEndpointId path) s (told 0x002 [0, x.eid]) ∧ Runs (.getMctpVersionSupport path) s (told 0x004 [0]) ∧
      Runs (.getMessageTypeSupport path) s (told 0x005 [0, 0x00, 0x01, 0x05, 0x7F]) ∧
      Runs (.getVendorMessageSupport path) s (told 0x006 [0, Config.vendorId (recordCopy s)])) ∧
    (pldm →
      Runs (.getTid path) s (told 0x102 [0, x.tid]) ∧
      Runs (.setTid path b) s (fun t => t = { s with vesper := { x with tid := b.toNat }, out := out 0x101 [0] }) ∧
      Runs (.getPldmVersion path ty) s (told 0x103 [if known then 0 else 1, ty]) ∧
      Runs (.getPldmTypes path) s (told 0x104 [0, 0, 2, 5]) ∧
      Runs (.getPldmCommands path ty) s (told 0x105 [if known then 0 else 1, ty]) ∧
      Runs (.setEventReceiver path b) s (fun t =>
        t = { s with vesper := { x with receiver := some (path, b.toNat) }, out := out 0x104 [2, 0] }) ∧
      (∀ n, sensorReading s id = some n → Runs (.getSensorReading path id) s (told 0x111 [0, id, n])) ∧
      (id = 0 ∨ 20 < id → Runs (.getSensorReading path id) s (told 0x111 [1, id]))) ∧
    (¬ serves → ∀ cmd ∈ [Instr.setEndpointId path b, .getEndpointId path, .getMctpVersionSupport path,
      .getMessageTypeSupport path, .getVendorMessageSupport path, .getTid path, .setTid path b, .getPldmVersion path ty,
      .getPldmTypes path, .getPldmCommands path ty, .setEventReceiver path b, .getSensorReading path id,
      .vendorRegRead path reg, .vendorRegWrite path reg v], Runs cmd s (fun t => t = s)) ∧
    (pldm → ¬ inRegs →
      Runs (.vendorRegRead path reg) s (fun t => t = { s with out := s.out ++ [letter s path 0x7F (1 :: bytesOfNat 4 0)] }) ∧
      Runs (.vendorRegWrite path reg v) s (fun t => t = { s with out := s.out ++ [letter s path 0x7F [1]] })) ∧
    (pldm → inRegs → reg % 4 ≠ 0 →
      Runs (.vendorRegRead path reg) s (fun t => Logged 0 0 s t ∧ t.mem = s.mem ∧ t.cores = s.cores ∧
        t.out = s.out ++ [letter s path 0x7F (1 :: bytesOfNat 4 0)]) ∧
      Runs (.vendorRegWrite path reg v) s (fun t => Logged 0 0 s t ∧ t.mem = s.mem ∧ t.cores = s.cores ∧
        t.out = s.out ++ [letter s path 0x7F [1]])) ∧
    (∀ k, pldm → k < 9 → reg = 0xF0000000000 + 4096 * k + 0x014 → bitOf (rawWord s 0 k 0x00C) 8 = false →
      Runs (.vendorRegRead path reg) s (fun t => t = { s with out := s.out ++ [letter s path 0x7F (0 :: bytesOfNat 4
        (rawWord s 0 k 0x014 &&& maskOf (fun a => a != .wo) (regAt k 0x014).2))] }) ∧
      Runs (.vendorRegWrite path reg v) s (fun t => RegsOnly k { s with out := s.out ++ [letter s path 0x7F [0]] } t ∧
        rawWord t 0 k 0x014 = v.toNat))

/-- Firmware update (R444, R446, R451, R465): each step is admitted in its states alone; components are written to the spare slot, in
recovery to either, or to the older copy, verified, with IMGFAIL for an image that fails, applied and activated; with nothing written
activation is refused; a refusal or a command out of place changes nothing but its answer.
Where it rests on the model's reading, see log entries 64 and 66; that a transfer not yet complete goes on rests on log entry 1. -/
def Obligations.FirmwareUpdate : Prop :=
  ∀ (path : Path) (comp svn size : Nat) (data : List Byte) (selfContained slotB : Bool) (s : State),
    let x := s.vesper
    let serves := mctpServes s path = true
    let out := fun (cmd : Nat) (args : List Nat) => s.out ++ [letter s path (0x200 + cmd) (Config.standardBody (0x200 + cmd) args)]
    let told := fun (cmd : Nat) (args : List Nat) (t : State) => t = { s with out := out cmd args }
    let sets := fun (y : Vesper) (cmd : Nat) (args : List Nat) (t : State) => t = { s with vesper := y, out := out cmd args }
    let bundle := comp = 1 ∨ comp = 2
    let base := compAt s + x.updDone
    let bootOnly := fun (t : State) => (∀ a, 0x10000 ≤ a → flashByte t a = flashByte s a) ∧
      flashBytes t (bootAt (t.vesper.bootSeq % 2)) 16 = bootBytes t.vesper
    let passes := (x.updComp = 1 → ∀ k, 1 ≤ k → k ≤ 3 → imageCause s x.updSlot k = 0) ∧
      (x.updComp ≠ 1 → recordValid s x.updSlot = true)
    let place := if comp = 1 then (if x.recovery then (if slotB then 1 else 0) else 1 - x.slot) else olderCopy s
    let bs := data.take (min 1024 (x.updSize - x.updDone))
    let wrong := fun (states : List Nat) (n : Nat) (cmd : Instr) => serves → x.updState ∉ states → Runs cmd s (told n [2])
    (serves →
      Runs (.queryDeviceIdentifiers path) s (told 0x01 [0]) ∧
      Runs (.getFirmwareParameters path) s (told 0x02
        [0, 1, imageNat s x.slot 1 8 4, imageNat s x.slot 1 12 4, 2, recordSeq s x.cfgCopy]) ∧
      Runs (.pldmGetStatus path) s (told 0x1B [0, x.updState, x.updDone]) ∧
      (x.updState = 0 → Runs (.requestUpdate path) s
        (sets { x with updState := 1, updComp := 0, updDone := 0, updWritten := [] } 0x10 [0])) ∧
      (x.updState = 1 ∨ x.updState = 2 →
        (bundle → (comp = 1 → x.floor ≤ svn) → Runs (.passComponentTable path comp svn) s
          (sets { x with updState := 2 } 0x13 [0, comp])) ∧
        (¬ bundle ∨ (comp = 1 ∧ svn < x.floor) → Runs (.passComponentTable path comp svn) s (told 0x13 [1, comp]))) ∧
      (x.updState = 2 →
        (bundle → size ≤ compMax comp → Runs (.updateComponent path ⟨comp, slotB⟩ size) s
          (sets { x with updState := 3, updComp := comp, updSlot := place, updDone := 0, updSize := size, updOk := false } 0x14 [0, comp])) ∧
        (¬ bundle ∨ compMax comp < size → Runs (.updateComponent path ⟨comp, slotB⟩ size) s (told 0x14 [1, comp])) ∧
        (selfContained = true ∨ x.updWritten = [] → Runs (.activateFirmware path selfContained) s (told 0x1A [1])) ∧
        (selfContained = false → x.updWritten ≠ [] → Runs (.activateFirmware path selfContained) s (fun t => t.out = out 0x1A [0] ∧
          t.vesper.updState = 0 ∧ t.vesper.updWritten = [] ∧ Logged vesperPage 6 s t ∧ t.mem = s.mem ∧
          (1 ∈ x.updWritten → t.vesper.prefSlot = x.updBundle ∧ t.vesper.trialFlag = true ∧ bootOnly t) ∧
          (1 ∉ x.updWritten → t.vesper.prefSlot = x.prefSlot ∧ t.vesper.trialFlag = x.trialFlag ∧ t.vesper.flash = x.flash)))) ∧
      (x.updState = 3 →
        Runs (.requestFirmwareData path data) s (fun t => t = { s with vesper := t.vesper } ∧
          t.vesper = { x with flash := t.vesper.flash, updDone := x.updDone + bs.length } ∧
          flashBytes t base bs.length = bs ∧ ∀ a, a < base ∨ base + bs.length ≤ a → flashByte t a = flashByte s a) ∧
        (x.updDone = x.updSize → Runs (.transferComplete path) s (sets { x with updState := 4 } 0x16 [0])) ∧
        (x.updDone ≠ x.updSize → Runs (.transferComplete path) s (fun t => t = s))) ∧
      (x.updState = 4 →
        (passes → Runs (.verifyComplete path) s (sets { x with updState := 5, updOk := true } 0x17 [0])) ∧
        (¬ passes → Runs (.verifyComplete path) s (fun t => t.out = out 0x17 [1] ∧ t.vesper = { x with updState := 2 } ∧
          t.mem = s.mem ∧ (x.updComp = 1 → bitOf (rawWord t 0 vesperPage 0x010) 0 = true) ∧
          (x.updComp ≠ 1 → t.regs = s.regs)))) ∧
      (x.updState = 5 → Runs (.applyComplete path) s (fun t => t.out = out 0x18 [0] ∧ t.vesper.updState = 2 ∧
        x.updComp ∈ t.vesper.updWritten ∧ Logged vesperPage 6 s t ∧ t.mem = s.mem ∧
        (x.updComp = 1 → t.vesper.updBundle = x.updSlot ∧ x.updSlot ∉ t.vesper.failed ∧ bootOnly t ∧
          (x.recovery = true → t.vesper.booting = true ∧ t.vesper.stage = 0 ∧ t.vesper.recovery = false)) ∧
        (x.updComp ≠ 1 → t.vesper.failed = x.failed ∧ t.vesper.recovery = x.recovery ∧ t.vesper.flash = x.flash))) ∧
      (3 ≤ x.updState → x.updState ≤ 5 → Runs (.cancelUpdateComponent path) s (sets { x with updState := 2 } 0x1C [0])) ∧
      (1 ≤ x.updState → x.updState ≤ 5 → Runs (.cancelUpdate path) s
        (sets { x with updState := 0, updWritten := [] } 0x1D [0]))) ∧
    wrong [0] 0x10 (.requestUpdate path) ∧ wrong [1, 2] 0x13 (.passComponentTable path comp svn) ∧
    wrong [2] 0x14 (.updateComponent path ⟨comp, slotB⟩ size) ∧ wrong [3] 0x15 (.requestFirmwareData path data) ∧
    wrong [3] 0x16 (.transferComplete path) ∧ wrong [4] 0x17 (.verifyComplete path) ∧ wrong [5] 0x18 (.applyComplete path) ∧
    wrong [2] 0x1A (.activateFirmware path selfContained) ∧ wrong [3, 4, 5] 0x1C (.cancelUpdateComponent path) ∧
    wrong [1, 2, 3, 4, 5] 0x1D (.cancelUpdate path)

/-! ### Register pages -/

/-- The common header (R494 to R499, R504): a write that passes the checks sets EN and DBG, empties the capture or the counters, or
clears the event flags that it names; DBG while PGDBG is closed is discarded; a soft reset of a disabled page returns its
words to Reset and shows RSTBUSY until it is done, flushes the crossings of its domain and returns zero to a core's read in flight, of
an enabled page it is HDRSKIP. A function's writes are those that none of its port's held writes goes before.
Where it rests on the model's reading, see log entries 6, 7, 30 and 32; that nothing changes where no reset is in progress rests on
log entry 1. -/
def Obligations.HeaderCommands : Prop :=
  ∀ (r : Req) (page : Nat) (v : W32) (s : State), page < 16384 → hasHeader page = true →
    let passes := fun (off n : Nat) => (∀ p f, r = .func p f → fnLive s p f = true ∧ heldWrites s p = false ∧
        hostDenied s p f page off n = false) ∧
      (onMeridian (pageKind page) = false ∨ s.power.meridian = 2) ∧ pageRefusal s page off false = none
    let ctrl := fun (t : State) => rawWord t 0 page 0x008
    let here := fun (t : State) => RegsOnly page s t ∧ ∀ b p o, p < 16384 → o < 4096 → b ≠ 0 ∨ p ≠ page →
      rawWord t b p o = rawWord s b p o
    let noCapture := fun (t : State) => fieldOf t 0 page 0x00C 5 0 = 0 ∧ ∀ k, k < 4 → rawWord t 0 page (0x040 + 4 * k) = 0
    let noCounts := fun (t : State) => ∀ k, k < 8 → rawWord t 0 page (0x020 + 4 * k) = 0
    let now := ctrlNow s page
    let debug := scopeOpen s 1 = true
    let unread := ∀ c : CoreId, (s.core c).ctl.regWait = none
    let quiet := debug ∨ bitOf (ctrl s) 2 = false
    (passes 0x008 v.toNat → bitOf v.toNat 1 = false → bitOf v.toNat 2 = false ∨ debug → page ≠ bndPage → page ≠ ickPage →
      Runs (.pgEn r page v) s (fun t => here t ∧ bitOf (ctrl t) 0 = bitOf v.toNat 0 ∧ bitOf (ctrl t) 2 = bitOf v.toNat 2 ∧
        (bitOf v.toNat 3 = true → noCapture t) ∧ (bitOf v.toNat 4 = true → noCounts t))) ∧
    (passes 0x008 v.toNat → bitOf v.toNat 2 = true → ¬ debug → Runs (.pgEn r page v) s (fun t =>
      Logged vesperPage 5 s t ∧ ctrl t = ctrl s ∧ t.mem = s.mem ∧ t.cores = s.cores)) ∧
    (passes 0x008 (putBits now 2 2 1) → debug → Runs (.pgDbg r page) s (fun t => here t ∧ bitOf (ctrl t) 2 = true ∧
      pageEn t page = pageEn s page)) ∧
    (passes 0x008 (putBits now 2 2 1) → ¬ debug → Runs (.pgDbg r page) s (fun t =>
      Logged vesperPage 5 s t ∧ ctrl t = ctrl s ∧ t.mem = s.mem)) ∧
    (passes 0x008 (now + 8) → quiet → Runs (.pgFeclr r page) s (fun t => here t ∧ noCapture t ∧
      pageEn t page = pageEn s page ∧ ∀ k, k < 8 → rawWord t 0 page (0x020 + 4 * k) = rawWord s 0 page (0x020 + 4 * k))) ∧
    (passes 0x008 (now + 16) → quiet → Runs (.pgCntclr r page) s (fun t => here t ∧ noCounts t ∧
      pageEn t page = pageEn s page ∧ rawWord t 0 page 0x00C = rawWord s 0 page 0x00C)) ∧
    (passes 0x010 v.toNat → Runs (.eventClear r page v) s (fun t => here t ∧
      ∀ k, k < 32 → bitOf (rawWord t 0 page 0x010) k = (bitOf (rawWord s 0 page 0x010) k && !bitOf v.toNat k))) ∧
    (passes 0x008 (putBits v.toNat 1 1 1) → bitOf v.toNat 2 = false → page ∈ [0x003, 0x004, 0x005, 0x008] →
      pageEn s page = false → Runs (.pgSrst r page v) s (fun t => rawWord t 0 page 0x00C = 2 ^ 8 ∧
        (∀ o, o < 4096 → o / 4 ≠ 3 → mfind t.regs (rkey 0 page o) = none) ∧ t.mem = s.mem ∧ (unread → t.cores = s.cores) ∧
        (∀ c w, (s.core c).ctl.regWait = some w → regPlace w.addr = (page, w.addr % 4096) →
          0xF0000000000 ≤ w.addr → w.addr < 0xF0001000000 →
          (t.core c).ctl.regWait = none ∧ sget (t.core c) w.rd = 0) ∧
        bitOf (rawWord t 0 powerPage 0x010) 6 = true ∧
        ∀ b p o, p < 16384 → o < 4096 → p ≠ page → p ≠ powerPage → rawWord t b p o = rawWord s b p o)) ∧
    (passes 0x008 (putBits v.toNat 1 1 1) → bitOf v.toNat 2 = false → bitOf v.toNat 3 = false → bitOf v.toNat 4 = false →
      pageEn s page = false →
      (page = redPage → Runs (.pgSrst r page v) s (fun t => t.red = { s.red with counts := [] } ∧ t.mem = s.mem)) ∧
      (page = updPage → Runs (.pgSrst r page v) s (fun t => t.mem = s.mem ∧
        ∀ n, lyrGet t n = { lyrGet s n with rejected := false })) ∧
      (∀ c, page = coreP c 4 → unread → Runs (.pgSrst r page v) s (fun t => CoresKept c s t ∧ t.mem = s.mem ∧
        ∀ g, g < 4 → groupOf (t.core c) g = { groupOf (s.core c) g with wiped := true }))) ∧
    (passes 0x008 (putBits v.toNat 1 1 1) → bitOf v.toNat 2 = false → bitOf v.toNat 3 = false → bitOf v.toNat 4 = false →
      pageEn s page = true → resetBarred s page = false → Runs (.pgSrst r page v) s (fun t =>
        Logged 0 4 s t ∧ t.mem = s.mem ∧ t.cores = s.cores)) ∧
    (∀ c, page = coreP c 0 → passes 0x008 (putBits v.toNat 1 1 1) → bitOf v.toNat 2 = false → bitOf v.toNat 3 = false →
      bitOf v.toNat 4 = false → (s.core c).sched.task ≠ none → Runs (.pgSrst r page v) s (fun t =>
        Logged page 4 s t ∧ t.cores = s.cores)) ∧
    (bitOf (rawWord s 0 page 0x00C) 8 = true → Runs (.softResetDone page) s (fun t => here t ∧
      bitOf (rawWord t 0 page 0x00C) 8 = false ∧ fieldOf t 0 page 0x00C 5 0 = fieldOf s 0 page 0x00C 5 0)) ∧
    (bitOf (rawWord s 0 page 0x00C) 8 = false → Runs (.softResetDone page) s (fun t => t = s))

/-- The checks of R504 on a register write, in their order (R11, R13, R14, R432, R471, R504, R506): an address elsewhere is no
register's; a misaligned one is BADACC, a refused function's HOSTDENY, an unassigned one UNASSIGNED, one of a page in soft
reset HDRSKIP, one of RO fields ROWRITE and of fixed RWL fields LOCKED, and none of them changes a register; a write that
passes stores its word or acts, and one of Vesper's that needs Meridian starts it and waits; a function's is held behind the writes of
its port that are held (R427), and one of a function that is not enabled ends there.
Where it rests on the model's reading, see log entries 5 (the shape of a 64-bit access), 7, 31, 75 (HOSTDENY whatever Meridian's state),
77 and 106; that an address elsewhere changes nothing rests on log entry 1. -/
def Obligations.RegisterWrites : Prop :=
  ∀ (r : Req) (addr : Nat) (wide : Bool) (v : W64) (s : State),
    let inside := 0xF0000000000 ≤ addr ∧ addr < 0xF0001000000
    let page := (reqPlace r addr).1
    let off := (reqPlace r addr).2
    let n := if wide then v.toNat else v.toNat % 2 ^ 32
    let cmd := Instr.registerWrite r addr wide v
    let fs := coveredFields page off wide
    let live := ∀ p f, r = .func p f → fnLive s p f = true ∧ heldWrites s p = false
    let allowed := live ∧ ∀ p f, r = .func p f → hostDenied s p f page off n = false
    let here := onMeridian (pageKind page) = false ∨ s.power.meridian = 2
    let busy := hasHeader page = true ∧ bitOf (rawWord s 0 page 0x00C) 8 = true ∧ off ≠ 0x00C
    let fixed := fs.all (fieldFixed s page) = true ∧ debugWord s page off = false ∧ reservedCount page off = false
    let refused := fun (flag : Nat) (t : State) => Logged 0 flag s t ∧ t.mem = s.mem ∧ t.cores = s.cores ∧ t.objs = s.objs ∧
      ∀ b p o, p < 16384 → o < 4096 → p ≠ 0 → rawWord t b p o = rawWord s b p o
    (¬ inside → Runs cmd s (fun t => t = s)) ∧
    (∀ p f, r = .func p f → inside → fnLive s p f = false → Runs cmd s (fun t => t = s)) ∧
    (∀ p f, r = .func p f → inside → fnLive s p f = true → heldWrites s p = true → Runs cmd s (fun t =>
      t = { s with hosts := t.hosts } ∧ (∀ q, q ≠ p → t.host q = s.host q) ∧ t.host p = { s.host p with
        windowQ := (s.host p).windowQ ++ [ctlAccess f (windowOff p f page off) wide (some n) s.now] })) ∧
    (inside → live → shapeOk page off wide = false → Runs cmd s (refused 0)) ∧
    (∀ p f, r = .func p f → inside → live → shapeOk page off wide = true → hostDenied s p f page off n = true →
      Runs cmd s (fun t => Logged hostPage 0 s t ∧ t.mem = s.mem ∧ t.cores = s.cores ∧ t.objs = s.objs)) ∧
    (r = .vesper → inside → shapeOk page off wide = true → onMeridian (pageKind page) = true → s.power.meridian = 4 →
      s.power.modState = 2 → s.power.tripped = false → s.power.refclk156 = true → Runs cmd s (fun t =>
        t.power.meridian = 1 ∧ t.vesper.held = s.vesper.held ++ [⟨none, page, off, wide, some n⟩] ∧ t.regs = s.regs ∧
        t.cores = s.cores ∧ t.mem = s.mem)) ∧
    (inside → shapeOk page off wide = true → allowed → here →
      (fs = [] → Runs cmd s (refused 1)) ∧
      (fs ≠ [] → busy → Runs cmd s (refused 4)) ∧
      (∀ x l, fs = x :: l → ¬ busy → fixed → Runs cmd s (refused (if x.acc = .ro then 2 else 3))) ∧
      (fs ≠ [] → ¬ busy → off = 0x014 → wide = false → hasHeader page = true → page < 16384 → Runs cmd s (fun t =>
        RegsOnly page s t ∧ rawWord t 0 page 0x014 = v.toNat % 2 ^ 32 ∧
        ∀ b p o, p < 16384 → o < 4096 → b ≠ 0 ∨ p ≠ page ∨ o / 4 ≠ 5 → rawWord t b p o = rawWord s b p o)) ∧
      (¬ busy → page = soPage → off = 0x108 → wide = true → Runs cmd s (fun t => ObjsOnly s t ∧
        ∀ o, objGet t o = if o = soSel s r then v else objGet s o)))

/-! ### The block as a whole -/

/-- Numbers: a binary32 or bfloat16 code that is no NaN reads as a value that is written as that code again, subnormals
included (R35, R36); a NaN is written as the one NaN code.
Stochastic rounding (R296): a finite value within range goes to one of its two bf16 neighbours in magnitude, and to itself
where it is one.
The arithmetic of the accumulators (R54, R55, R57 to R60): a block product is aligned to the anchor with one rounding to
nearest, ties to even, and clamped to 63 bits of magnitude; a SUM cell adds it exactly over value and excess; a MAX or MIN cell takes it when it is
better, or as good at an earlier step; non-finite flags only rise; and a SUM cell reads by its flags and its saturated sum. -/
def Obligations.NumberCodes : Prop :=
  ((∀ (fb w : Nat), fb = 7 ∨ fb = 23 → w < 2 ^ (fb + 9) →
      ((fdec fb w).isNan = false → fenc fb (fdec fb w) = w) ∧
      ((fdec fb w).isNan = true → fenc fb (fdec fb w) = fnan fb)) ∧
   (∀ (neg : Bool) (m : Nat) (e : Int) (v : Nat), 0 < m → (bfMag 0x7F7F).lt ⟨m, e⟩ = false →
      ∃ lo, Dyad.lt ⟨m, e⟩ (bfMag lo) = false ∧ Dyad.lt ⟨m, e⟩ (bfMag (lo + 1)) = true ∧ (srCode neg m e v).2 = false ∧
        ((srCode neg m e v).1 % 2 ^ 15 = lo ∨ (srCode neg m e v).1 % 2 ^ 15 = lo + 1) ∧
        ((bfMag lo).lt ⟨m, e⟩ = false → (srCode neg m e v).1 % 2 ^ 15 = lo))) ∧
  (∀ (p w anchor : Int) (b : Partial) (n : Nat) (x : Cell) (na nb : Nat) (m : Elem) (m' : Elem),
     let lim : Int := 2 ^ 63 - 1
     let a := align p w anchor
     let d := w - anchor
     let y := x.addSum b a
     let sum := x.sum + (if b.finite then a.c else 0)
     let isMin := fun (min : Bool) => x.compete min n b a
     let better := fun (min : Bool) => if min then a.c < x.value.toInt else x.value.toInt < a.c
     let found := x.flag 26 = true
     let idx := x.state.toNat % 2 ^ 20
     let flags := fun (z : Cell) => z.flag 27 = (x.flag 27 || b.nan) ∧ z.flag 28 = (x.flag 28 || b.pinf) ∧
       z.flag 29 = (x.flag 29 || b.ninf) ∧ z.flag 25 = (x.flag 25 || (b.finite && a.clamp))
     (-lim ≤ a.c ∧ a.c ≤ lim) ∧
     (0 ≤ d → a.rounded = false ∧ (a.clamp = true ↔ lim < (p * 2 ^ d.toNat).natAbs) ∧
       (a.clamp = false → a.c = p * 2 ^ d.toNat)) ∧
     (d < 0 → (a.rounded = true ↔ p % 2 ^ (-d).toNat ≠ 0) ∧ (a.clamp = false →
       2 * (a.c * 2 ^ (-d).toNat - p).natAbs ≤ 2 ^ (-d).toNat ∧
       (2 * (a.c * 2 ^ (-d).toNat - p).natAbs = 2 ^ (-d).toNat → a.c % 2 = 0))) ∧
     (a.clamp = true → a.c = if p < 0 then -lim else lim) ∧
     ((-(2 ^ 88) ≤ sum → sum < 2 ^ 88 → y.sum = sum) ∧ flags y ∧ y.index = x.index) ∧
     (n < 2 ^ 20 → ∀ min,
       let z := isMin min
       flags z ∧ z.flag 26 = (x.flag 26 || b.finite) ∧
       (b.finite = true → ¬found ∨ better min ∨ (a.c = x.value.toInt ∧ n < idx) → z.value.toInt = a.c ∧ z.state.toNat % 2 ^ 20 = n) ∧
       (¬(b.finite = true ∧ (¬found ∨ better min ∨ (a.c = x.value.toInt ∧ n < idx))) →
         z.value = x.value ∧ z.state.toNat % 2 ^ 20 = idx)) ∧
     (x.read 0 = if x.flag 27 = true ∨ (x.flag 28 = true ∧ x.flag 29 = true) then .nan
       else if x.flag 28 = true then .inf false else if x.flag 29 = true then .inf true else .fin (max (-lim) (min x.sum lim))) ∧
     (elemNan na m = false → elemNan nb m' = false → elemInf na m = false → elemInf nb m' = false → m.m * m'.m ≠ 0 →
       addPair na nb m m' b = { b with
         p := b.p + m.m * m'.m, finite := true, w := ((m.e : Int) - 127) + ((m'.e : Int) - 127) - (na - 1) - (nb - 1) }))

/-- R160: power-on reset leaves the control core with zero scalar registers, zero instruction pages and data memory and every
page OPEN; a soft reset of its block zeroes the scalar registers and opens the pages, and keeps what the pages and data
memory hold; one that is written while a task runs is skipped. That it sets PC to 0 is the model's choice (log entry 32). -/
def Obligations.ControlCoreReset : Prop :=
  (∀ c r p a, sget (State.reset.core c) r = 0 ∧ mget PageState.opened (State.reset.core c).ctl.pages p = .opened ∧
    memGet State.reset.mem a = 0) ∧
  ∀ (q : Req) (c : CoreId) (v : W32) (s : State), s.power.meridian = 2 →
    bitOf (rawWord s 0 (coreP c 0) 0x00C) 8 = false →
    (∀ p f, q = .func p f → fnLive s p f = true ∧ heldWrites s p = false ∧
      hostDenied s p f (coreP c 0) 0x008 (putBits v.toNat 1 1 1) = false) → bitOf v.toNat 2 = false →
    (∀ d : CoreId, (s.core d).ctl.regWait = none) →
    (pageEn s (coreP c 0) = false → (s.core c).sched.task = none → Runs (.pgSrst q (coreP c 0) v) s (fun t =>
      (∀ r p, sget (t.core c) r = 0 ∧ mget PageState.opened (t.core c).ctl.pages p = .opened) ∧ (t.core c).ctl.pc = 0 ∧ t.mem = s.mem ∧
      CoresKept c s t ∧ bitOf (rawWord t 0 (coreP c 0) 0x00C) 8 = true)) ∧
    ((s.core c).sched.task ≠ none → Runs (.pgSrst q (coreP c 0) v) s (fun t =>
      t.cores = s.cores ∧ t.mem = s.mem ∧ bitOf (rawWord t 0 (coreP c 0) 0x00C) 8 = false))

/-- The module after reset (R15, R205, R211, R219, R236, R252, R302, R326, R356, R362, R399, R475, R515): registers at their Reset
columns, objects zero, no task, group, page, layer, record, flow or port in use, no power, no command waiting. The reset
values that the log entries 4, 8 and 9 name are the model's choice. -/
def Obligations.ResetState : Prop :=
  let s := State.reset
  s.pending = [] ∧ MemSound s ∧ s.out = [] ∧ s.now = 0 ∧
  (∀ b p o, rawWord s b p o = resetOf (regAt p o).2) ∧ (∀ o, objGet s o = 0) ∧ (∀ a, memGet s.mem a = 0) ∧
  (∀ c, (s.core c).sched.task = none ∧ (∀ n, slotOf (s.core c) n = ⟨0, 0⟩) ∧ (∀ g : Fin 4, ((s.core c).groups.get g).state = 0) ∧
    (s.core c).queues.flights = [] ∧ ∀ k, genOf (s.core c) k = 0) ∧
  (∀ k, (s.chan k).active = none ∧ (s.chan k).shadow = none) ∧ (∀ p, s.mpage p = none) ∧ (∀ k, condOf s k = .zero) ∧
  (∀ n, (lyrGet s n).state = 0) ∧ (∀ b k, memberOf s b k = none ∧ recordOf s b k = none) ∧
  (∀ p, (portOf s p).state = 0) ∧ s.txn.tags = [] ∧ s.txn.flows = [] ∧ s.bnd.step = 0 ∧ s.power.modState = 0 ∧
  s.power.meridian = 0 ∧ s.vesper.scopes = 0 ∧ s.vesper.booting = false ∧
  ∀ p, (s.host p).perst = true ∧ (s.host p).trained = false ∧ (s.host p).numVf = 0 ∧ windowSize s p 0 = 2 ^ 36 ∧
    ∀ f : Fin 65, f.val ≠ 0 → windowSize s p f = 2 ^ 32

/-- The command at the front of the queue is the one that a step performs, with the queue's rest.
With no command waiting a step changes nothing: the model's choice (log entry 15). -/
def Obligations.StepRunsFront : Prop :=
  (∀ (i : Instr) (l : List Instr) (s : State), s.pending = i :: l → step s = exec i { s with pending := l }) ∧
  (∀ s : State, s.pending = [] → step s = .next s)

/-- No command stops the block (R3, R4): in every state every command answers a next state, and so does a step; that a command whose
occasion is absent answers too rests on log entry 1. -/
def Obligations.EveryCommandAnswers : Prop :=
  ∀ s : State, Safe s ∧ ∀ i, ∃ t, exec i s = .next t

/-- What every step keeps: the canonical form of memory, the order of time and of what has left the module, and the queue but
for its front. -/
def Obligations.StepsKeepOrder : Prop :=
  ∀ s t : State, step s = .next t →
    (MemSound s → MemSound t) ∧ s.now ≤ t.now ∧ s.out <+: t.out ∧ t.pending = s.pending.tail

/-- What every step keeps besides: bytes of unified memory that no page holds read zero (R237), a queue holds at most its capacity
(R162), a tile is CLEAN or DIRTY only in a page that holds a frame (R238), and a replay buffer holds at most 1,024 flits (R339). -/
def Obligations.StepsKeepBounds : Prop :=
  ∀ s t : State, step s = .next t →
    let zeros := fun (s : State) => ∀ a, a < 0x30000000000 → allocated s (pageOf a) = false → memGet s.mem a = 0
    let fits := fun (s : State) => ∀ c q, (queueOf (s.core c) q).length ≤ capacity q
    let framed := fun (s : State) => s.mig.pages.Pairwise (fun a b => a.1 < b.1) ∧ s.mig.tiles.Pairwise (fun a b => a.1 < b.1) ∧
      ∀ k, condOf s k = .clean ∨ condOf s k = .dirty → ((s.mpage (k / 512)).bind (fun x => x.frame)).isSome = true
    let bounded := fun (s : State) => ∀ p, (portOf s p).replay.length ≤ 1024
    (zeros s → zeros t) ∧ (fits s → fits t) ∧ (framed s → framed t) ∧ (bounded s → bounded t)
end

