-- ==== Sys2Proof/Laws/Tables.lean ====
section
/-! SUPPORT. Tables and byte memory: a read after a write, and the canonical form that every memory operation keeps. -/
namespace Sys2Proof.Machine

/-! ### Tables -/

theorem mfind_mset_same {α : Type} (m : Map α) (k : Nat) (v : α) : mfind (mset m k v) k = some v := by
  induction m with
  | nil => simp [mset, mfind]
  | cons p t ih =>
    obtain ⟨a, w⟩ := p
    simp only [mset]
    by_cases h1 : k < a
    · simp [h1, mfind]
    · by_cases h2 : k = a
      · simp [h2, mfind]
      · have h3 : ¬ a = k := fun e => h2 e.symm
        simp [h1, h2, h3, mfind, ih]

theorem mfind_mset_other {α : Type} (m : Map α) (k j : Nat) (v : α) (h : j ≠ k) : mfind (mset m k v) j = mfind m j := by
  have hk : ¬ k = j := fun e => h e.symm
  induction m with
  | nil => simp [mset, mfind, hk]
  | cons p t ih =>
    obtain ⟨a, w⟩ := p
    simp only [mset]
    by_cases h1 : k < a
    · simp [h1, mfind, hk]
    · by_cases h2 : k = a
      · subst h2; simp [mfind, hk]
      · simp [h1, h2, mfind, ih]

theorem mfind_mdel_same {α : Type} (m : Map α) (k : Nat) : mfind (mdel m k) k = none := by
  induction m with
  | nil => rfl
  | cons p t ih =>
    obtain ⟨a, w⟩ := p
    by_cases h : a = k
    · simpa [mdel, h] using ih
    · simp only [mdel, List.filter_cons, ne_eq, h, not_false_eq_true, decide_true, if_true, mfind, if_false]
      exact ih

theorem mfind_mdel_other {α : Type} (m : Map α) (k j : Nat) (h : j ≠ k) : mfind (mdel m k) j = mfind m j := by
  induction m with
  | nil => rfl
  | cons p t ih =>
    obtain ⟨a, w⟩ := p
    by_cases h2 : a = k
    · have h3 : ¬ a = j := fun e => h (e.symm.trans h2)
      have h4 : ¬ k = j := fun e => h e.symm
      simpa [mdel, h2, mfind, h3, h4] using ih
    · simp only [mdel, List.filter_cons, ne_eq, h2, not_false_eq_true, decide_true, if_true, mfind]
      by_cases h5 : a = j
      · simp [h5]
      · simp only [h5, if_false]; exact ih

@[simp] theorem mget_mset_same {α : Type} (d : α) (m : Map α) (k : Nat) (v : α) : mget d (mset m k v) k = v := by
  simp [mget, mfind_mset_same]

theorem mget_mset_other {α : Type} (d : α) (m : Map α) (k j : Nat) (v : α) (h : j ≠ k) : mget d (mset m k v) j = mget d m j := by
  simp [mget, mfind_mset_other m k j v h]

@[simp] theorem mget_mput_same {α : Type} [DecidableEq α] (d : α) (m : Map α) (k : Nat) (v : α) : mget d (mput d m k v) k = v := by
  by_cases h : v = d
  · simp [mput, h, mget, mfind_mdel_same]
  · simp [mput, h]

theorem mget_mput_other {α : Type} [DecidableEq α] (d : α) (m : Map α) (k j : Nat) (v : α) (h : j ≠ k) :
    mget d (mput d m k v) j = mget d m j := by
  by_cases hv : v = d
  · simp [mput, hv, mget, mfind_mdel_other m k j h]
  · simp [mput, hv, mget_mset_other d m k j v h]

/-! ### Byte memory -/

@[simp] theorem memGet_memPut_same (m : List Host.Cell) (a : Nat) (b : Byte) : memGet (memPut m a b) a = b :=
  mget_mput_same (0 : Byte) m a b

theorem memGet_memPut_other (m : List Host.Cell) (a x : Nat) (b : Byte) (h : x ≠ a) : memGet (memPut m a b) x = memGet m x :=
  mget_mput_other (0 : Byte) m a x b h

/-- Bytes outside a run that is written read as before. -/
theorem memGet_memPutAll_outside (bs : List Byte) : ∀ (m : List Host.Cell) (a x : Nat), (x < a ∨ a + bs.length ≤ x) →
    memGet (memPutAll m a bs) x = memGet m x := by
  induction bs with
  | nil => intros; rfl
  | cons b t ih =>
    intro m a x h
    simp only [List.length_cons] at h
    rw [memPutAll, ih _ _ _ (by omega), memGet_memPut_other _ _ _ _ (by omega)]

/-- A byte of a run that is written reads as what was written. -/
theorem memGet_memPutAll_inside (bs : List Byte) : ∀ (m : List Host.Cell) (a i : Nat) (h : i < bs.length),
    memGet (memPutAll m a bs) (a + i) = bs[i] := by
  induction bs with
  | nil => intro m a i h; simp at h
  | cons b t ih =>
    intro m a i h
    cases i with
    | zero =>
      simp only [memPutAll, Nat.add_zero, List.getElem_cons_zero]
      rw [memGet_memPutAll_outside _ _ _ _ (Or.inl (by omega))]; simp
    | succ i =>
      have := ih (memPut m a b) (a + 1) i (by simpa using h)
      simp only [memPutAll, List.getElem_cons_succ]
      rw [← this]; congr 1; omega

/-- A run reads back as it was written. -/
theorem memGetAll_memPutAll (m : List Host.Cell) (bs : List Byte) (a : Nat) : memGetAll (memPutAll m a bs) a bs.length = bs := by
  have key : ∀ (n k : Nat) (x : List Host.Cell), (∀ i, (h : i < n) → memGet x (a + k + i) = bs.getD (k + i) 0) →
      memGetAll x (a + k) n = (List.range' k n).map (fun i => bs.getD i 0) := by
    intro n
    induction n with
    | zero => intros; rfl
    | succ n ih =>
      intro k x h
      simp only [memGetAll, List.range'_succ, List.map_cons]
      rw [show a + k + 1 = a + (k + 1) by omega, ih (k + 1) x (fun i hi => by
        have := h (i + 1) (by omega)
        rw [show a + (k + 1) + i = a + k + (i + 1) by omega, this]; congr 1; omega)]
      have := h 0 (by omega)
      simp only [Nat.add_zero] at this; rw [this]
  have := key bs.length 0 (memPutAll m a bs) (fun i h => by
    simp only [Nat.add_zero, Nat.zero_add]
    rw [memGet_memPutAll_inside bs m a i h]; simp [List.getD, h])
  simp only [Nat.add_zero] at this
  rw [this]
  apply List.ext_getElem
  · simp
  · intro i h1 h2; simp [List.getD, h2]

/-! ### The canonical form -/

theorem mset_keys {α : Type} (m : Map α) (k : Nat) (v : α) (x : Nat × α) (h : x ∈ mset m k v) : x = (k, v) ∨ x ∈ m := by
  induction m with
  | nil => simp [mset] at h; exact Or.inl h
  | cons p t ih =>
    obtain ⟨a, w⟩ := p
    simp only [mset] at h
    split at h
    · exact List.mem_cons.1 h
    · split at h
      · exact (List.mem_cons.1 h).imp_right (List.mem_cons_of_mem _)
      · simp only [List.mem_cons] at h ⊢
        rcases h with h | h
        · exact Or.inr (Or.inl h)
        · rcases ih h with h | h
          · exact Or.inl h
          · exact Or.inr (Or.inr h)

theorem mset_rising {α : Type} (m : Map α) (k : Nat) (v : α) (h : m.Pairwise (fun a b => a.1 < b.1)) :
    (mset m k v).Pairwise (fun a b => a.1 < b.1) := by
  induction m with
  | nil => simp [mset]
  | cons p t ih =>
    obtain ⟨a, w⟩ := p
    have hp := List.pairwise_cons.1 h
    simp only [mset]
    split
    · next hk =>
      refine List.pairwise_cons.2 ⟨fun x hx => ?_, h⟩
      rcases List.mem_cons.1 hx with rfl | hx
      · exact hk
      · exact Nat.lt_trans hk (hp.1 x hx)
    · split
      · next hk hka =>
        subst hka
        exact List.pairwise_cons.2 ⟨fun x hx => hp.1 x hx, hp.2⟩
      · next hk hka =>
        refine List.pairwise_cons.2 ⟨fun x hx => ?_, ih hp.2⟩
        rcases mset_keys t k v x hx with rfl | hx
        · show a < k; omega
        · exact hp.1 x hx

theorem Memory.wf_iff (m : List Host.Cell) :
    Memory.wf m = true ↔ m.Pairwise (fun a b => a.1 < b.1) ∧ ∀ p ∈ m, p.2 ≠ 0 := by
  simp [Memory.wf, List.all_eq_true]

/-- Writing a byte keeps the canonical form. -/
theorem memPut_wf (m : List Host.Cell) (a : Nat) (b : Byte) (h : Memory.wf m = true) : Memory.wf (memPut m a b) = true := by
  rw [Memory.wf_iff] at h ⊢
  unfold memPut mput
  split
  · exact ⟨h.1.filter _, fun p hp => h.2 p ((List.mem_filter.1 hp).1)⟩
  · next hb =>
    refine ⟨mset_rising _ _ _ h.1, fun p hp => ?_⟩
    rcases mset_keys _ _ _ _ hp with rfl | hp
    · exact hb
    · exact h.2 p hp

/-- Writing a run keeps the canonical form. -/
theorem memPutAll_wf (bs : List Byte) : ∀ (m : List Host.Cell) (a : Nat), Memory.wf m = true → Memory.wf (memPutAll m a bs) = true := by
  induction bs with
  | nil => intro m a h; exact h
  | cons b t ih => intro m a h; exact ih _ _ (memPut_wf m a b h)

/-- Leaving out bytes keeps the canonical form. -/
theorem filter_wf (f : Host.Cell → Bool) (m : List Host.Cell) (h : Memory.wf m = true) : Memory.wf (m.filter f) = true := by
  rw [Memory.wf_iff] at h ⊢
  exact ⟨h.1.filter _, fun p hp => h.2 p ((List.mem_filter.1 hp).1)⟩

end Sys2Proof.Machine
end

