-- ==== Sys2Proof/Laws/Board.lean ====
section
/-! SUPPORT. The flash, the management network's messages, the core clock and the held accesses of ports: what each shared
operation changes, said once. -/
namespace Sys2Proof.Machine

variable (s : State)

/-! ### What each operation leaves -/

theorem modVesper_frame (f : Vesper → Vesper) : modVesper f s = { s with vesper := f s.vesper } := rfl

theorem programFlash_frame (a : Nat) (bs : List Byte) :
    programFlash a bs s = { s with vesper := { s.vesper with flash := (programFlash a bs s).vesper.flash } } := rfl

theorem eraseFlash_frame (a n : Nat) :
    eraseFlash a n s = { s with vesper := { s.vesper with flash := dropRange a (a + n) s.vesper.flash } } := rfl

theorem modBoot_frame (f : Vesper → Vesper) : modBoot f s = { s with vesper := (modBoot f s).vesper } := rfl

theorem loadBoot_frame : loadBoot s = { s with vesper := (loadBoot s).vesper } := by
  unfold loadBoot
  split <;> rfl

theorem mail_frame (path : Path) (kind : Nat) (body : List Byte) :
    mail path kind body s = { s with out := s.out ++ [letter s path kind body] } := rfl

theorem setClock_frame (f : Nat) :
    setClock f s = { s with power := { s.power with fcore := f, volts := (setClock f s).power.volts } } := rfl

@[simp] theorem setClock_fcore (f : Nat) : (setClock f s).power.fcore = f := rfl

theorem modCfg_frame (p : Fin 2) (f : Fin 65) (g : FnCfg → FnCfg) :
    modCfg p f g s = { s with hosts := (modCfg p f g s).hosts } := rfl

theorem holdAccess_frame (p : Fin 2) (w : WinAccess) : holdAccess p w s = { s with hosts := (holdAccess p w s).hosts } := rfl

theorem addWaiter_frame (w : WaitFor) (tiles : List Nat) :
    addWaiter w tiles s = { s with mig := { s.mig with waiters := (addWaiter w tiles s).mig.waiters } } := rfl

theorem clearCovered_frame (ps : List (Nat × List (Byte × Bool))) :
    clearCovered ps s = { s with poison := (clearCovered ps s).poison } := rfl

/-- Clearing marks adds none. -/
theorem clearCovered_poison (ps : List (Nat × List (Byte × Bool))) (l : Nat) (h : l ∈ (clearCovered ps s).poison) :
    l ∈ s.poison := by
  unfold clearCovered at h
  exact (List.mem_filter.1 h).1

/-! ### The flash read back (R443) -/

theorem putBytes_outside (l : List (Nat × Byte)) : ∀ (m : Map Byte) (a x : Nat), (∀ q ∈ l, a + q.1 ≠ x) →
    mget (0xFF : Byte) (l.foldl (fun m q => mput (0xFF : Byte) m (a + q.1) q.2) m) x = mget 0xFF m x := by
  induction l with
  | nil => intros; rfl
  | cons q t ih =>
    intro m a x h
    rw [List.foldl_cons, ih _ a x (fun r hr => h r (List.mem_cons_of_mem _ hr))]
    exact mget_mput_other _ _ _ _ _ (fun e => h q (List.mem_cons_self ..) e.symm)

/-- A byte outside the data is not changed. -/
theorem programFlash_outside (a x : Nat) (bs : List Byte) (h : x < a ∨ a + bs.length ≤ x) :
    mget (0xFF : Byte) (programFlash a bs s).vesper.flash x = mget 0xFF s.vesper.flash x := by
  refine putBytes_outside _ _ _ _ fun q hq => ?_
  have := List.mem_range.1 (List.of_mem_zip hq).1
  omega

theorem putBytes_inside (a : Nat) (bs : List Byte) : ∀ (m : Map Byte) (k i : Nat) (h : i < bs.length),
    mget (0xFF : Byte) (((List.range' k bs.length).zip bs).foldl (fun m q => mput (0xFF : Byte) m (a + q.1) q.2) m)
      (a + (k + i)) = bs[i] := by
  induction bs with
  | nil => intro m k i h; simp at h
  | cons b t ih =>
    intro m k i h
    rw [List.length_cons, List.range'_succ, List.zip_cons_cons, List.foldl_cons]
    cases i with
    | zero =>
      rw [putBytes_outside _ _ _ _ fun q hq => ?_]
      · exact mget_mput_same _ _ _ _
      · have := List.mem_range'_1.1 (List.of_mem_zip hq).1
        omega
    | succ j =>
      have e : a + (k + (j + 1)) = a + (k + 1 + j) := by omega
      rw [e, ih _ (k + 1) j (by simpa using h)]
      rfl

/-- Data written into the flash reads back. -/
theorem programFlash_inside (a i : Nat) (bs : List Byte) (h : i < bs.length) :
    mget (0xFF : Byte) (programFlash a bs s).vesper.flash (a + i) = bs[i] := by
  have k := putBytes_inside a bs s.vesper.flash 0 i h
  rw [← List.range_eq_range', Nat.zero_add] at k
  exact k

end Sys2Proof.Machine
end

