-- ==== Sys2Proof/Laws/State.lean ====
section
/-! SUPPORT. The fields of a state after each named update, so that no later proof unfolds a record update; and what logging an
event leaves alone. -/
namespace Sys2Proof.Machine

variable (s : State)

/-! ### setCore -/

@[simp] theorem setCore_pending (c : CoreId) (x : Core) : (setCore c x s).pending = s.pending := rfl
@[simp] theorem setCore_now (c : CoreId) (x : Core) : (setCore c x s).now = s.now := rfl
@[simp] theorem setCore_freeCtr (c : CoreId) (x : Core) : (setCore c x s).freeCtr = s.freeCtr := rfl
@[simp] theorem setCore_mem (c : CoreId) (x : Core) : (setCore c x s).mem = s.mem := rfl
@[simp] theorem setCore_poison (c : CoreId) (x : Core) : (setCore c x s).poison = s.poison := rfl
@[simp] theorem setCore_regs (c : CoreId) (x : Core) : (setCore c x s).regs = s.regs := rfl
@[simp] theorem setCore_latch (c : CoreId) (x : Core) : (setCore c x s).latch = s.latch := rfl
@[simp] theorem setCore_heldLow (c : CoreId) (x : Core) : (setCore c x s).heldLow = s.heldLow := rfl
@[simp] theorem setCore_objs (c : CoreId) (x : Core) : (setCore c x s).objs = s.objs := rfl
@[simp] theorem setCore_chans (c : CoreId) (x : Core) : (setCore c x s).chans = s.chans := rfl
@[simp] theorem setCore_cal (c : CoreId) (x : Core) : (setCore c x s).cal = s.cal := rfl
@[simp] theorem setCore_mig (c : CoreId) (x : Core) : (setCore c x s).mig = s.mig := rfl
@[simp] theorem setCore_layers (c : CoreId) (x : Core) : (setCore c x s).layers = s.layers := rfl
@[simp] theorem setCore_updating (c : CoreId) (x : Core) : (setCore c x s).updating = s.updating := rfl
@[simp] theorem setCore_red (c : CoreId) (x : Core) : (setCore c x s).red = s.red := rfl
@[simp] theorem setCore_ick (c : CoreId) (x : Core) : (setCore c x s).ick = s.ick := rfl
@[simp] theorem setCore_txn (c : CoreId) (x : Core) : (setCore c x s).txn = s.txn := rfl
@[simp] theorem setCore_bnd (c : CoreId) (x : Core) : (setCore c x s).bnd = s.bnd := rfl
@[simp] theorem setCore_rel (c : CoreId) (x : Core) : (setCore c x s).rel = s.rel := rfl
@[simp] theorem setCore_hosts (c : CoreId) (x : Core) : (setCore c x s).hosts = s.hosts := rfl
@[simp] theorem setCore_vesper (c : CoreId) (x : Core) : (setCore c x s).vesper = s.vesper := rfl
@[simp] theorem setCore_power (c : CoreId) (x : Core) : (setCore c x s).power = s.power := rfl
@[simp] theorem setCore_out (c : CoreId) (x : Core) : (setCore c x s).out = s.out := rfl
@[simp] theorem setCore_chan (c : CoreId) (x : Core) (k : ChanId) : (setCore c x s).chan k = s.chan k := rfl
@[simp] theorem setCore_rawWord (c : CoreId) (x : Core) (b' p' o' : Nat) : rawWord (setCore c x s) b' p' o' = rawWord s b' p' o' := rfl
@[simp] theorem setCore_objGet (c : CoreId) (x : Core) (o' : Nat) : objGet (setCore c x s) o' = objGet s o' := rfl

/-! ### modCore -/

@[simp] theorem modCore_pending (c : CoreId) (f : Core → Core) : (modCore c f s).pending = s.pending := rfl
@[simp] theorem modCore_now (c : CoreId) (f : Core → Core) : (modCore c f s).now = s.now := rfl
@[simp] theorem modCore_freeCtr (c : CoreId) (f : Core → Core) : (modCore c f s).freeCtr = s.freeCtr := rfl
@[simp] theorem modCore_mem (c : CoreId) (f : Core → Core) : (modCore c f s).mem = s.mem := rfl
@[simp] theorem modCore_poison (c : CoreId) (f : Core → Core) : (modCore c f s).poison = s.poison := rfl
@[simp] theorem modCore_regs (c : CoreId) (f : Core → Core) : (modCore c f s).regs = s.regs := rfl
@[simp] theorem modCore_latch (c : CoreId) (f : Core → Core) : (modCore c f s).latch = s.latch := rfl
@[simp] theorem modCore_heldLow (c : CoreId) (f : Core → Core) : (modCore c f s).heldLow = s.heldLow := rfl
@[simp] theorem modCore_objs (c : CoreId) (f : Core → Core) : (modCore c f s).objs = s.objs := rfl
@[simp] theorem modCore_chans (c : CoreId) (f : Core → Core) : (modCore c f s).chans = s.chans := rfl
@[simp] theorem modCore_cal (c : CoreId) (f : Core → Core) : (modCore c f s).cal = s.cal := rfl
@[simp] theorem modCore_mig (c : CoreId) (f : Core → Core) : (modCore c f s).mig = s.mig := rfl
@[simp] theorem modCore_layers (c : CoreId) (f : Core → Core) : (modCore c f s).layers = s.layers := rfl
@[simp] theorem modCore_updating (c : CoreId) (f : Core → Core) : (modCore c f s).updating = s.updating := rfl
@[simp] theorem modCore_red (c : CoreId) (f : Core → Core) : (modCore c f s).red = s.red := rfl
@[simp] theorem modCore_ick (c : CoreId) (f : Core → Core) : (modCore c f s).ick = s.ick := rfl
@[simp] theorem modCore_txn (c : CoreId) (f : Core → Core) : (modCore c f s).txn = s.txn := rfl
@[simp] theorem modCore_bnd (c : CoreId) (f : Core → Core) : (modCore c f s).bnd = s.bnd := rfl
@[simp] theorem modCore_rel (c : CoreId) (f : Core → Core) : (modCore c f s).rel = s.rel := rfl
@[simp] theorem modCore_hosts (c : CoreId) (f : Core → Core) : (modCore c f s).hosts = s.hosts := rfl
@[simp] theorem modCore_vesper (c : CoreId) (f : Core → Core) : (modCore c f s).vesper = s.vesper := rfl
@[simp] theorem modCore_power (c : CoreId) (f : Core → Core) : (modCore c f s).power = s.power := rfl
@[simp] theorem modCore_out (c : CoreId) (f : Core → Core) : (modCore c f s).out = s.out := rfl
@[simp] theorem modCore_chan (c : CoreId) (f : Core → Core) (k : ChanId) : (modCore c f s).chan k = s.chan k := rfl
@[simp] theorem modCore_rawWord (c : CoreId) (f : Core → Core) (b' p' o' : Nat) : rawWord (modCore c f s) b' p' o' = rawWord s b' p' o' := rfl
@[simp] theorem modCore_objGet (c : CoreId) (f : Core → Core) (o' : Nat) : objGet (modCore c f s) o' = objGet s o' := rfl

/-! ### setChan -/

@[simp] theorem setChan_pending (ch : ChanId) (x : Chan) : (setChan ch x s).pending = s.pending := rfl
@[simp] theorem setChan_now (ch : ChanId) (x : Chan) : (setChan ch x s).now = s.now := rfl
@[simp] theorem setChan_freeCtr (ch : ChanId) (x : Chan) : (setChan ch x s).freeCtr = s.freeCtr := rfl
@[simp] theorem setChan_mem (ch : ChanId) (x : Chan) : (setChan ch x s).mem = s.mem := rfl
@[simp] theorem setChan_poison (ch : ChanId) (x : Chan) : (setChan ch x s).poison = s.poison := rfl
@[simp] theorem setChan_regs (ch : ChanId) (x : Chan) : (setChan ch x s).regs = s.regs := rfl
@[simp] theorem setChan_latch (ch : ChanId) (x : Chan) : (setChan ch x s).latch = s.latch := rfl
@[simp] theorem setChan_heldLow (ch : ChanId) (x : Chan) : (setChan ch x s).heldLow = s.heldLow := rfl
@[simp] theorem setChan_objs (ch : ChanId) (x : Chan) : (setChan ch x s).objs = s.objs := rfl
@[simp] theorem setChan_cores (ch : ChanId) (x : Chan) : (setChan ch x s).cores = s.cores := rfl
@[simp] theorem setChan_cal (ch : ChanId) (x : Chan) : (setChan ch x s).cal = s.cal := rfl
@[simp] theorem setChan_mig (ch : ChanId) (x : Chan) : (setChan ch x s).mig = s.mig := rfl
@[simp] theorem setChan_layers (ch : ChanId) (x : Chan) : (setChan ch x s).layers = s.layers := rfl
@[simp] theorem setChan_updating (ch : ChanId) (x : Chan) : (setChan ch x s).updating = s.updating := rfl
@[simp] theorem setChan_red (ch : ChanId) (x : Chan) : (setChan ch x s).red = s.red := rfl
@[simp] theorem setChan_ick (ch : ChanId) (x : Chan) : (setChan ch x s).ick = s.ick := rfl
@[simp] theorem setChan_txn (ch : ChanId) (x : Chan) : (setChan ch x s).txn = s.txn := rfl
@[simp] theorem setChan_bnd (ch : ChanId) (x : Chan) : (setChan ch x s).bnd = s.bnd := rfl
@[simp] theorem setChan_rel (ch : ChanId) (x : Chan) : (setChan ch x s).rel = s.rel := rfl
@[simp] theorem setChan_hosts (ch : ChanId) (x : Chan) : (setChan ch x s).hosts = s.hosts := rfl
@[simp] theorem setChan_vesper (ch : ChanId) (x : Chan) : (setChan ch x s).vesper = s.vesper := rfl
@[simp] theorem setChan_power (ch : ChanId) (x : Chan) : (setChan ch x s).power = s.power := rfl
@[simp] theorem setChan_out (ch : ChanId) (x : Chan) : (setChan ch x s).out = s.out := rfl
@[simp] theorem setChan_core (ch : ChanId) (x : Chan) (c' : CoreId) : (setChan ch x s).core c' = s.core c' := rfl
@[simp] theorem setChan_rawWord (ch : ChanId) (x : Chan) (b' p' o' : Nat) : rawWord (setChan ch x s) b' p' o' = rawWord s b' p' o' := rfl
@[simp] theorem setChan_objGet (ch : ChanId) (x : Chan) (o' : Nat) : objGet (setChan ch x s) o' = objGet s o' := rfl

/-! ### modChan -/

@[simp] theorem modChan_pending (ch : ChanId) (f : Chan → Chan) : (modChan ch f s).pending = s.pending := rfl
@[simp] theorem modChan_now (ch : ChanId) (f : Chan → Chan) : (modChan ch f s).now = s.now := rfl
@[simp] theorem modChan_freeCtr (ch : ChanId) (f : Chan → Chan) : (modChan ch f s).freeCtr = s.freeCtr := rfl
@[simp] theorem modChan_mem (ch : ChanId) (f : Chan → Chan) : (modChan ch f s).mem = s.mem := rfl
@[simp] theorem modChan_poison (ch : ChanId) (f : Chan → Chan) : (modChan ch f s).poison = s.poison := rfl
@[simp] theorem modChan_regs (ch : ChanId) (f : Chan → Chan) : (modChan ch f s).regs = s.regs := rfl
@[simp] theorem modChan_latch (ch : ChanId) (f : Chan → Chan) : (modChan ch f s).latch = s.latch := rfl
@[simp] theorem modChan_heldLow (ch : ChanId) (f : Chan → Chan) : (modChan ch f s).heldLow = s.heldLow := rfl
@[simp] theorem modChan_objs (ch : ChanId) (f : Chan → Chan) : (modChan ch f s).objs = s.objs := rfl
@[simp] theorem modChan_cores (ch : ChanId) (f : Chan → Chan) : (modChan ch f s).cores = s.cores := rfl
@[simp] theorem modChan_cal (ch : ChanId) (f : Chan → Chan) : (modChan ch f s).cal = s.cal := rfl
@[simp] theorem modChan_mig (ch : ChanId) (f : Chan → Chan) : (modChan ch f s).mig = s.mig := rfl
@[simp] theorem modChan_layers (ch : ChanId) (f : Chan → Chan) : (modChan ch f s).layers = s.layers := rfl
@[simp] theorem modChan_updating (ch : ChanId) (f : Chan → Chan) : (modChan ch f s).updating = s.updating := rfl
@[simp] theorem modChan_red (ch : ChanId) (f : Chan → Chan) : (modChan ch f s).red = s.red := rfl
@[simp] theorem modChan_ick (ch : ChanId) (f : Chan → Chan) : (modChan ch f s).ick = s.ick := rfl
@[simp] theorem modChan_txn (ch : ChanId) (f : Chan → Chan) : (modChan ch f s).txn = s.txn := rfl
@[simp] theorem modChan_bnd (ch : ChanId) (f : Chan → Chan) : (modChan ch f s).bnd = s.bnd := rfl
@[simp] theorem modChan_rel (ch : ChanId) (f : Chan → Chan) : (modChan ch f s).rel = s.rel := rfl
@[simp] theorem modChan_hosts (ch : ChanId) (f : Chan → Chan) : (modChan ch f s).hosts = s.hosts := rfl
@[simp] theorem modChan_vesper (ch : ChanId) (f : Chan → Chan) : (modChan ch f s).vesper = s.vesper := rfl
@[simp] theorem modChan_power (ch : ChanId) (f : Chan → Chan) : (modChan ch f s).power = s.power := rfl
@[simp] theorem modChan_out (ch : ChanId) (f : Chan → Chan) : (modChan ch f s).out = s.out := rfl
@[simp] theorem modChan_core (ch : ChanId) (f : Chan → Chan) (c' : CoreId) : (modChan ch f s).core c' = s.core c' := rfl
@[simp] theorem modChan_rawWord (ch : ChanId) (f : Chan → Chan) (b' p' o' : Nat) : rawWord (modChan ch f s) b' p' o' = rawWord s b' p' o' := rfl
@[simp] theorem modChan_objGet (ch : ChanId) (f : Chan → Chan) (o' : Nat) : objGet (modChan ch f s) o' = objGet s o' := rfl

/-! ### modHost -/

@[simp] theorem modHost_pending (p : Fin 2) (f : HPort → HPort) : (modHost p f s).pending = s.pending := rfl
@[simp] theorem modHost_now (p : Fin 2) (f : HPort → HPort) : (modHost p f s).now = s.now := rfl
@[simp] theorem modHost_freeCtr (p : Fin 2) (f : HPort → HPort) : (modHost p f s).freeCtr = s.freeCtr := rfl
@[simp] theorem modHost_mem (p : Fin 2) (f : HPort → HPort) : (modHost p f s).mem = s.mem := rfl
@[simp] theorem modHost_poison (p : Fin 2) (f : HPort → HPort) : (modHost p f s).poison = s.poison := rfl
@[simp] theorem modHost_regs (p : Fin 2) (f : HPort → HPort) : (modHost p f s).regs = s.regs := rfl
@[simp] theorem modHost_latch (p : Fin 2) (f : HPort → HPort) : (modHost p f s).latch = s.latch := rfl
@[simp] theorem modHost_heldLow (p : Fin 2) (f : HPort → HPort) : (modHost p f s).heldLow = s.heldLow := rfl
@[simp] theorem modHost_objs (p : Fin 2) (f : HPort → HPort) : (modHost p f s).objs = s.objs := rfl
@[simp] theorem modHost_cores (p : Fin 2) (f : HPort → HPort) : (modHost p f s).cores = s.cores := rfl
@[simp] theorem modHost_chans (p : Fin 2) (f : HPort → HPort) : (modHost p f s).chans = s.chans := rfl
@[simp] theorem modHost_cal (p : Fin 2) (f : HPort → HPort) : (modHost p f s).cal = s.cal := rfl
@[simp] theorem modHost_mig (p : Fin 2) (f : HPort → HPort) : (modHost p f s).mig = s.mig := rfl
@[simp] theorem modHost_layers (p : Fin 2) (f : HPort → HPort) : (modHost p f s).layers = s.layers := rfl
@[simp] theorem modHost_updating (p : Fin 2) (f : HPort → HPort) : (modHost p f s).updating = s.updating := rfl
@[simp] theorem modHost_red (p : Fin 2) (f : HPort → HPort) : (modHost p f s).red = s.red := rfl
@[simp] theorem modHost_ick (p : Fin 2) (f : HPort → HPort) : (modHost p f s).ick = s.ick := rfl
@[simp] theorem modHost_txn (p : Fin 2) (f : HPort → HPort) : (modHost p f s).txn = s.txn := rfl
@[simp] theorem modHost_bnd (p : Fin 2) (f : HPort → HPort) : (modHost p f s).bnd = s.bnd := rfl
@[simp] theorem modHost_rel (p : Fin 2) (f : HPort → HPort) : (modHost p f s).rel = s.rel := rfl
@[simp] theorem modHost_vesper (p : Fin 2) (f : HPort → HPort) : (modHost p f s).vesper = s.vesper := rfl
@[simp] theorem modHost_power (p : Fin 2) (f : HPort → HPort) : (modHost p f s).power = s.power := rfl
@[simp] theorem modHost_out (p : Fin 2) (f : HPort → HPort) : (modHost p f s).out = s.out := rfl
@[simp] theorem modHost_core (p : Fin 2) (f : HPort → HPort) (c' : CoreId) : (modHost p f s).core c' = s.core c' := rfl
@[simp] theorem modHost_chan (p : Fin 2) (f : HPort → HPort) (k : ChanId) : (modHost p f s).chan k = s.chan k := rfl
@[simp] theorem modHost_rawWord (p : Fin 2) (f : HPort → HPort) (b' p' o' : Nat) : rawWord (modHost p f s) b' p' o' = rawWord s b' p' o' := rfl
@[simp] theorem modHost_objGet (p : Fin 2) (f : HPort → HPort) (o' : Nat) : objGet (modHost p f s) o' = objGet s o' := rfl

/-! ### storeN -/

@[simp] theorem storeN_pending (a n v : Nat) : (storeN a n v s).pending = s.pending := rfl
@[simp] theorem storeN_now (a n v : Nat) : (storeN a n v s).now = s.now := rfl
@[simp] theorem storeN_freeCtr (a n v : Nat) : (storeN a n v s).freeCtr = s.freeCtr := rfl
@[simp] theorem storeN_mem (a n v : Nat) : (storeN a n v s).mem = memPutAll s.mem a (bytesOfNat n v) := rfl
@[simp] theorem storeN_poison (a n v : Nat) : (storeN a n v s).poison = s.poison := rfl
@[simp] theorem storeN_regs (a n v : Nat) : (storeN a n v s).regs = s.regs := rfl
@[simp] theorem storeN_latch (a n v : Nat) : (storeN a n v s).latch = s.latch := rfl
@[simp] theorem storeN_heldLow (a n v : Nat) : (storeN a n v s).heldLow = s.heldLow := rfl
@[simp] theorem storeN_objs (a n v : Nat) : (storeN a n v s).objs = s.objs := rfl
@[simp] theorem storeN_cores (a n v : Nat) : (storeN a n v s).cores = s.cores := rfl
@[simp] theorem storeN_chans (a n v : Nat) : (storeN a n v s).chans = s.chans := rfl
@[simp] theorem storeN_cal (a n v : Nat) : (storeN a n v s).cal = s.cal := rfl
@[simp] theorem storeN_mig (a n v : Nat) : (storeN a n v s).mig = s.mig := rfl
@[simp] theorem storeN_layers (a n v : Nat) : (storeN a n v s).layers = s.layers := rfl
@[simp] theorem storeN_updating (a n v : Nat) : (storeN a n v s).updating = s.updating := rfl
@[simp] theorem storeN_red (a n v : Nat) : (storeN a n v s).red = s.red := rfl
@[simp] theorem storeN_ick (a n v : Nat) : (storeN a n v s).ick = s.ick := rfl
@[simp] theorem storeN_txn (a n v : Nat) : (storeN a n v s).txn = s.txn := rfl
@[simp] theorem storeN_bnd (a n v : Nat) : (storeN a n v s).bnd = s.bnd := rfl
@[simp] theorem storeN_rel (a n v : Nat) : (storeN a n v s).rel = s.rel := rfl
@[simp] theorem storeN_hosts (a n v : Nat) : (storeN a n v s).hosts = s.hosts := rfl
@[simp] theorem storeN_vesper (a n v : Nat) : (storeN a n v s).vesper = s.vesper := rfl
@[simp] theorem storeN_power (a n v : Nat) : (storeN a n v s).power = s.power := rfl
@[simp] theorem storeN_out (a n v : Nat) : (storeN a n v s).out = s.out := rfl
@[simp] theorem storeN_core (a n v : Nat) (c' : CoreId) : (storeN a n v s).core c' = s.core c' := rfl
@[simp] theorem storeN_chan (a n v : Nat) (k : ChanId) : (storeN a n v s).chan k = s.chan k := rfl
@[simp] theorem storeN_rawWord (a n v : Nat) (b' p' o' : Nat) : rawWord (storeN a n v s) b' p' o' = rawWord s b' p' o' := rfl
@[simp] theorem storeN_objGet (a n v : Nat) (o' : Nat) : objGet (storeN a n v s) o' = objGet s o' := rfl

/-! ### storeBytes -/

@[simp] theorem storeBytes_pending (a : Nat) (bs : List Byte) : (storeBytes a bs s).pending = s.pending := rfl
@[simp] theorem storeBytes_now (a : Nat) (bs : List Byte) : (storeBytes a bs s).now = s.now := rfl
@[simp] theorem storeBytes_freeCtr (a : Nat) (bs : List Byte) : (storeBytes a bs s).freeCtr = s.freeCtr := rfl
@[simp] theorem storeBytes_mem (a : Nat) (bs : List Byte) : (storeBytes a bs s).mem = memPutAll s.mem a bs := rfl
@[simp] theorem storeBytes_poison (a : Nat) (bs : List Byte) : (storeBytes a bs s).poison = s.poison := rfl
@[simp] theorem storeBytes_regs (a : Nat) (bs : List Byte) : (storeBytes a bs s).regs = s.regs := rfl
@[simp] theorem storeBytes_latch (a : Nat) (bs : List Byte) : (storeBytes a bs s).latch = s.latch := rfl
@[simp] theorem storeBytes_heldLow (a : Nat) (bs : List Byte) : (storeBytes a bs s).heldLow = s.heldLow := rfl
@[simp] theorem storeBytes_objs (a : Nat) (bs : List Byte) : (storeBytes a bs s).objs = s.objs := rfl
@[simp] theorem storeBytes_cores (a : Nat) (bs : List Byte) : (storeBytes a bs s).cores = s.cores := rfl
@[simp] theorem storeBytes_chans (a : Nat) (bs : List Byte) : (storeBytes a bs s).chans = s.chans := rfl
@[simp] theorem storeBytes_cal (a : Nat) (bs : List Byte) : (storeBytes a bs s).cal = s.cal := rfl
@[simp] theorem storeBytes_mig (a : Nat) (bs : List Byte) : (storeBytes a bs s).mig = s.mig := rfl
@[simp] theorem storeBytes_layers (a : Nat) (bs : List Byte) : (storeBytes a bs s).layers = s.layers := rfl
@[simp] theorem storeBytes_updating (a : Nat) (bs : List Byte) : (storeBytes a bs s).updating = s.updating := rfl
@[simp] theorem storeBytes_red (a : Nat) (bs : List Byte) : (storeBytes a bs s).red = s.red := rfl
@[simp] theorem storeBytes_ick (a : Nat) (bs : List Byte) : (storeBytes a bs s).ick = s.ick := rfl
@[simp] theorem storeBytes_txn (a : Nat) (bs : List Byte) : (storeBytes a bs s).txn = s.txn := rfl
@[simp] theorem storeBytes_bnd (a : Nat) (bs : List Byte) : (storeBytes a bs s).bnd = s.bnd := rfl
@[simp] theorem storeBytes_rel (a : Nat) (bs : List Byte) : (storeBytes a bs s).rel = s.rel := rfl
@[simp] theorem storeBytes_hosts (a : Nat) (bs : List Byte) : (storeBytes a bs s).hosts = s.hosts := rfl
@[simp] theorem storeBytes_vesper (a : Nat) (bs : List Byte) : (storeBytes a bs s).vesper = s.vesper := rfl
@[simp] theorem storeBytes_power (a : Nat) (bs : List Byte) : (storeBytes a bs s).power = s.power := rfl
@[simp] theorem storeBytes_out (a : Nat) (bs : List Byte) : (storeBytes a bs s).out = s.out := rfl
@[simp] theorem storeBytes_core (a : Nat) (bs : List Byte) (c' : CoreId) : (storeBytes a bs s).core c' = s.core c' := rfl
@[simp] theorem storeBytes_chan (a : Nat) (bs : List Byte) (k : ChanId) : (storeBytes a bs s).chan k = s.chan k := rfl
@[simp] theorem storeBytes_rawWord (a : Nat) (bs : List Byte) (b' p' o' : Nat) : rawWord (storeBytes a bs s) b' p' o' = rawWord s b' p' o' := rfl
@[simp] theorem storeBytes_objGet (a : Nat) (bs : List Byte) (o' : Nat) : objGet (storeBytes a bs s) o' = objGet s o' := rfl

/-! ### advanceTo -/

@[simp] theorem advanceTo_pending (t : Nat) : (advanceTo t s).pending = s.pending := rfl
@[simp] theorem advanceTo_now (t : Nat) : (advanceTo t s).now = max s.now t := rfl
@[simp] theorem advanceTo_freeCtr (t : Nat) : (advanceTo t s).freeCtr = s.freeCtr := rfl
@[simp] theorem advanceTo_mem (t : Nat) : (advanceTo t s).mem = s.mem := rfl
@[simp] theorem advanceTo_poison (t : Nat) : (advanceTo t s).poison = s.poison := rfl
@[simp] theorem advanceTo_regs (t : Nat) : (advanceTo t s).regs = s.regs := rfl
@[simp] theorem advanceTo_latch (t : Nat) : (advanceTo t s).latch = s.latch := rfl
@[simp] theorem advanceTo_heldLow (t : Nat) : (advanceTo t s).heldLow = s.heldLow := rfl
@[simp] theorem advanceTo_objs (t : Nat) : (advanceTo t s).objs = s.objs := rfl
@[simp] theorem advanceTo_cores (t : Nat) : (advanceTo t s).cores = s.cores := rfl
@[simp] theorem advanceTo_chans (t : Nat) : (advanceTo t s).chans = s.chans := rfl
@[simp] theorem advanceTo_cal (t : Nat) : (advanceTo t s).cal = s.cal := rfl
@[simp] theorem advanceTo_mig (t : Nat) : (advanceTo t s).mig = s.mig := rfl
@[simp] theorem advanceTo_layers (t : Nat) : (advanceTo t s).layers = s.layers := rfl
@[simp] theorem advanceTo_updating (t : Nat) : (advanceTo t s).updating = s.updating := rfl
@[simp] theorem advanceTo_red (t : Nat) : (advanceTo t s).red = s.red := rfl
@[simp] theorem advanceTo_ick (t : Nat) : (advanceTo t s).ick = s.ick := rfl
@[simp] theorem advanceTo_txn (t : Nat) : (advanceTo t s).txn = s.txn := rfl
@[simp] theorem advanceTo_bnd (t : Nat) : (advanceTo t s).bnd = s.bnd := rfl
@[simp] theorem advanceTo_rel (t : Nat) : (advanceTo t s).rel = s.rel := rfl
@[simp] theorem advanceTo_hosts (t : Nat) : (advanceTo t s).hosts = s.hosts := rfl
@[simp] theorem advanceTo_vesper (t : Nat) : (advanceTo t s).vesper = s.vesper := rfl
@[simp] theorem advanceTo_power (t : Nat) : (advanceTo t s).power = s.power := rfl
@[simp] theorem advanceTo_out (t : Nat) : (advanceTo t s).out = s.out := rfl
@[simp] theorem advanceTo_core (t : Nat) (c' : CoreId) : (advanceTo t s).core c' = s.core c' := rfl
@[simp] theorem advanceTo_chan (t : Nat) (k : ChanId) : (advanceTo t s).chan k = s.chan k := rfl
@[simp] theorem advanceTo_rawWord (t : Nat) (b' p' o' : Nat) : rawWord (advanceTo t s) b' p' o' = rawWord s b' p' o' := rfl
@[simp] theorem advanceTo_objGet (t : Nat) (o' : Nat) : objGet (advanceTo t s) o' = objGet s o' := rfl

/-! ### useFree -/

@[simp] theorem useFree_pending : (useFree s).pending = s.pending := rfl
@[simp] theorem useFree_now : (useFree s).now = s.now := rfl
@[simp] theorem useFree_freeCtr : (useFree s).freeCtr = s.freeCtr + 1 := rfl
@[simp] theorem useFree_mem : (useFree s).mem = s.mem := rfl
@[simp] theorem useFree_poison : (useFree s).poison = s.poison := rfl
@[simp] theorem useFree_regs : (useFree s).regs = s.regs := rfl
@[simp] theorem useFree_latch : (useFree s).latch = s.latch := rfl
@[simp] theorem useFree_heldLow : (useFree s).heldLow = s.heldLow := rfl
@[simp] theorem useFree_objs : (useFree s).objs = s.objs := rfl
@[simp] theorem useFree_cores : (useFree s).cores = s.cores := rfl
@[simp] theorem useFree_chans : (useFree s).chans = s.chans := rfl
@[simp] theorem useFree_cal : (useFree s).cal = s.cal := rfl
@[simp] theorem useFree_mig : (useFree s).mig = s.mig := rfl
@[simp] theorem useFree_layers : (useFree s).layers = s.layers := rfl
@[simp] theorem useFree_updating : (useFree s).updating = s.updating := rfl
@[simp] theorem useFree_red : (useFree s).red = s.red := rfl
@[simp] theorem useFree_ick : (useFree s).ick = s.ick := rfl
@[simp] theorem useFree_txn : (useFree s).txn = s.txn := rfl
@[simp] theorem useFree_bnd : (useFree s).bnd = s.bnd := rfl
@[simp] theorem useFree_rel : (useFree s).rel = s.rel := rfl
@[simp] theorem useFree_hosts : (useFree s).hosts = s.hosts := rfl
@[simp] theorem useFree_vesper : (useFree s).vesper = s.vesper := rfl
@[simp] theorem useFree_power : (useFree s).power = s.power := rfl
@[simp] theorem useFree_out : (useFree s).out = s.out := rfl
@[simp] theorem useFree_core (c' : CoreId) : (useFree s).core c' = s.core c' := rfl
@[simp] theorem useFree_chan (k : ChanId) : (useFree s).chan k = s.chan k := rfl
@[simp] theorem useFree_rawWord (b' p' o' : Nat) : rawWord (useFree s) b' p' o' = rawWord s b' p' o' := rfl
@[simp] theorem useFree_objGet (o' : Nat) : objGet (useFree s) o' = objGet s o' := rfl

/-! ### setWord -/

@[simp] theorem setWord_pending (b p o v : Nat) : (setWord b p o v s).pending = s.pending := rfl
@[simp] theorem setWord_now (b p o v : Nat) : (setWord b p o v s).now = s.now := rfl
@[simp] theorem setWord_freeCtr (b p o v : Nat) : (setWord b p o v s).freeCtr = s.freeCtr := rfl
@[simp] theorem setWord_mem (b p o v : Nat) : (setWord b p o v s).mem = s.mem := rfl
@[simp] theorem setWord_poison (b p o v : Nat) : (setWord b p o v s).poison = s.poison := rfl
@[simp] theorem setWord_latch (b p o v : Nat) : (setWord b p o v s).latch = s.latch := rfl
@[simp] theorem setWord_heldLow (b p o v : Nat) : (setWord b p o v s).heldLow = s.heldLow := rfl
@[simp] theorem setWord_objs (b p o v : Nat) : (setWord b p o v s).objs = s.objs := rfl
@[simp] theorem setWord_cores (b p o v : Nat) : (setWord b p o v s).cores = s.cores := rfl
@[simp] theorem setWord_chans (b p o v : Nat) : (setWord b p o v s).chans = s.chans := rfl
@[simp] theorem setWord_cal (b p o v : Nat) : (setWord b p o v s).cal = s.cal := rfl
@[simp] theorem setWord_mig (b p o v : Nat) : (setWord b p o v s).mig = s.mig := rfl
@[simp] theorem setWord_layers (b p o v : Nat) : (setWord b p o v s).layers = s.layers := rfl
@[simp] theorem setWord_updating (b p o v : Nat) : (setWord b p o v s).updating = s.updating := rfl
@[simp] theorem setWord_red (b p o v : Nat) : (setWord b p o v s).red = s.red := rfl
@[simp] theorem setWord_ick (b p o v : Nat) : (setWord b p o v s).ick = s.ick := rfl
@[simp] theorem setWord_txn (b p o v : Nat) : (setWord b p o v s).txn = s.txn := rfl
@[simp] theorem setWord_bnd (b p o v : Nat) : (setWord b p o v s).bnd = s.bnd := rfl
@[simp] theorem setWord_rel (b p o v : Nat) : (setWord b p o v s).rel = s.rel := rfl
@[simp] theorem setWord_hosts (b p o v : Nat) : (setWord b p o v s).hosts = s.hosts := rfl
@[simp] theorem setWord_vesper (b p o v : Nat) : (setWord b p o v s).vesper = s.vesper := rfl
@[simp] theorem setWord_power (b p o v : Nat) : (setWord b p o v s).power = s.power := rfl
@[simp] theorem setWord_out (b p o v : Nat) : (setWord b p o v s).out = s.out := rfl
@[simp] theorem setWord_core (b p o v : Nat) (c' : CoreId) : (setWord b p o v s).core c' = s.core c' := rfl
@[simp] theorem setWord_chan (b p o v : Nat) (k : ChanId) : (setWord b p o v s).chan k = s.chan k := rfl
@[simp] theorem setWord_objGet (b p o v : Nat) (o' : Nat) : objGet (setWord b p o v s) o' = objGet s o' := rfl

/-! ### setPair -/

@[simp] theorem setPair_pending (b p o v : Nat) : (setPair b p o v s).pending = s.pending := rfl
@[simp] theorem setPair_now (b p o v : Nat) : (setPair b p o v s).now = s.now := rfl
@[simp] theorem setPair_freeCtr (b p o v : Nat) : (setPair b p o v s).freeCtr = s.freeCtr := rfl
@[simp] theorem setPair_mem (b p o v : Nat) : (setPair b p o v s).mem = s.mem := rfl
@[simp] theorem setPair_poison (b p o v : Nat) : (setPair b p o v s).poison = s.poison := rfl
@[simp] theorem setPair_latch (b p o v : Nat) : (setPair b p o v s).latch = s.latch := rfl
@[simp] theorem setPair_heldLow (b p o v : Nat) : (setPair b p o v s).heldLow = s.heldLow := rfl
@[simp] theorem setPair_objs (b p o v : Nat) : (setPair b p o v s).objs = s.objs := rfl
@[simp] theorem setPair_cores (b p o v : Nat) : (setPair b p o v s).cores = s.cores := rfl
@[simp] theorem setPair_chans (b p o v : Nat) : (setPair b p o v s).chans = s.chans := rfl
@[simp] theorem setPair_cal (b p o v : Nat) : (setPair b p o v s).cal = s.cal := rfl
@[simp] theorem setPair_mig (b p o v : Nat) : (setPair b p o v s).mig = s.mig := rfl
@[simp] theorem setPair_layers (b p o v : Nat) : (setPair b p o v s).layers = s.layers := rfl
@[simp] theorem setPair_updating (b p o v : Nat) : (setPair b p o v s).updating = s.updating := rfl
@[simp] theorem setPair_red (b p o v : Nat) : (setPair b p o v s).red = s.red := rfl
@[simp] theorem setPair_ick (b p o v : Nat) : (setPair b p o v s).ick = s.ick := rfl
@[simp] theorem setPair_txn (b p o v : Nat) : (setPair b p o v s).txn = s.txn := rfl
@[simp] theorem setPair_bnd (b p o v : Nat) : (setPair b p o v s).bnd = s.bnd := rfl
@[simp] theorem setPair_rel (b p o v : Nat) : (setPair b p o v s).rel = s.rel := rfl
@[simp] theorem setPair_hosts (b p o v : Nat) : (setPair b p o v s).hosts = s.hosts := rfl
@[simp] theorem setPair_vesper (b p o v : Nat) : (setPair b p o v s).vesper = s.vesper := rfl
@[simp] theorem setPair_power (b p o v : Nat) : (setPair b p o v s).power = s.power := rfl
@[simp] theorem setPair_out (b p o v : Nat) : (setPair b p o v s).out = s.out := rfl
@[simp] theorem setPair_core (b p o v : Nat) (c' : CoreId) : (setPair b p o v s).core c' = s.core c' := rfl
@[simp] theorem setPair_chan (b p o v : Nat) (k : ChanId) : (setPair b p o v s).chan k = s.chan k := rfl
@[simp] theorem setPair_objGet (b p o v : Nat) (o' : Nat) : objGet (setPair b p o v s) o' = objGet s o' := rfl

/-! ### bumpPair -/

@[simp] theorem bumpPair_pending (p o n : Nat) : (bumpPair p o n s).pending = s.pending := rfl
@[simp] theorem bumpPair_now (p o n : Nat) : (bumpPair p o n s).now = s.now := rfl
@[simp] theorem bumpPair_freeCtr (p o n : Nat) : (bumpPair p o n s).freeCtr = s.freeCtr := rfl
@[simp] theorem bumpPair_mem (p o n : Nat) : (bumpPair p o n s).mem = s.mem := rfl
@[simp] theorem bumpPair_poison (p o n : Nat) : (bumpPair p o n s).poison = s.poison := rfl
@[simp] theorem bumpPair_latch (p o n : Nat) : (bumpPair p o n s).latch = s.latch := rfl
@[simp] theorem bumpPair_heldLow (p o n : Nat) : (bumpPair p o n s).heldLow = s.heldLow := rfl
@[simp] theorem bumpPair_objs (p o n : Nat) : (bumpPair p o n s).objs = s.objs := rfl
@[simp] theorem bumpPair_cores (p o n : Nat) : (bumpPair p o n s).cores = s.cores := rfl
@[simp] theorem bumpPair_chans (p o n : Nat) : (bumpPair p o n s).chans = s.chans := rfl
@[simp] theorem bumpPair_cal (p o n : Nat) : (bumpPair p o n s).cal = s.cal := rfl
@[simp] theorem bumpPair_mig (p o n : Nat) : (bumpPair p o n s).mig = s.mig := rfl
@[simp] theorem bumpPair_layers (p o n : Nat) : (bumpPair p o n s).layers = s.layers := rfl
@[simp] theorem bumpPair_updating (p o n : Nat) : (bumpPair p o n s).updating = s.updating := rfl
@[simp] theorem bumpPair_red (p o n : Nat) : (bumpPair p o n s).red = s.red := rfl
@[simp] theorem bumpPair_ick (p o n : Nat) : (bumpPair p o n s).ick = s.ick := rfl
@[simp] theorem bumpPair_txn (p o n : Nat) : (bumpPair p o n s).txn = s.txn := rfl
@[simp] theorem bumpPair_bnd (p o n : Nat) : (bumpPair p o n s).bnd = s.bnd := rfl
@[simp] theorem bumpPair_rel (p o n : Nat) : (bumpPair p o n s).rel = s.rel := rfl
@[simp] theorem bumpPair_hosts (p o n : Nat) : (bumpPair p o n s).hosts = s.hosts := rfl
@[simp] theorem bumpPair_vesper (p o n : Nat) : (bumpPair p o n s).vesper = s.vesper := rfl
@[simp] theorem bumpPair_power (p o n : Nat) : (bumpPair p o n s).power = s.power := rfl
@[simp] theorem bumpPair_out (p o n : Nat) : (bumpPair p o n s).out = s.out := rfl
@[simp] theorem bumpPair_core (p o n : Nat) (c' : CoreId) : (bumpPair p o n s).core c' = s.core c' := rfl
@[simp] theorem bumpPair_chan (p o n : Nat) (k : ChanId) : (bumpPair p o n s).chan k = s.chan k := rfl
@[simp] theorem bumpPair_objGet (p o n : Nat) (o' : Nat) : objGet (bumpPair p o n s) o' = objGet s o' := rfl

/-! ### setField -/

@[simp] theorem setField_pending (b p o hi lo v : Nat) : (setField b p o hi lo v s).pending = s.pending := rfl
@[simp] theorem setField_now (b p o hi lo v : Nat) : (setField b p o hi lo v s).now = s.now := rfl
@[simp] theorem setField_freeCtr (b p o hi lo v : Nat) : (setField b p o hi lo v s).freeCtr = s.freeCtr := rfl
@[simp] theorem setField_mem (b p o hi lo v : Nat) : (setField b p o hi lo v s).mem = s.mem := rfl
@[simp] theorem setField_poison (b p o hi lo v : Nat) : (setField b p o hi lo v s).poison = s.poison := rfl
@[simp] theorem setField_latch (b p o hi lo v : Nat) : (setField b p o hi lo v s).latch = s.latch := rfl
@[simp] theorem setField_heldLow (b p o hi lo v : Nat) : (setField b p o hi lo v s).heldLow = s.heldLow := rfl
@[simp] theorem setField_objs (b p o hi lo v : Nat) : (setField b p o hi lo v s).objs = s.objs := rfl
@[simp] theorem setField_cores (b p o hi lo v : Nat) : (setField b p o hi lo v s).cores = s.cores := rfl
@[simp] theorem setField_chans (b p o hi lo v : Nat) : (setField b p o hi lo v s).chans = s.chans := rfl
@[simp] theorem setField_cal (b p o hi lo v : Nat) : (setField b p o hi lo v s).cal = s.cal := rfl
@[simp] theorem setField_mig (b p o hi lo v : Nat) : (setField b p o hi lo v s).mig = s.mig := rfl
@[simp] theorem setField_layers (b p o hi lo v : Nat) : (setField b p o hi lo v s).layers = s.layers := rfl
@[simp] theorem setField_updating (b p o hi lo v : Nat) : (setField b p o hi lo v s).updating = s.updating := rfl
@[simp] theorem setField_red (b p o hi lo v : Nat) : (setField b p o hi lo v s).red = s.red := rfl
@[simp] theorem setField_ick (b p o hi lo v : Nat) : (setField b p o hi lo v s).ick = s.ick := rfl
@[simp] theorem setField_txn (b p o hi lo v : Nat) : (setField b p o hi lo v s).txn = s.txn := rfl
@[simp] theorem setField_bnd (b p o hi lo v : Nat) : (setField b p o hi lo v s).bnd = s.bnd := rfl
@[simp] theorem setField_rel (b p o hi lo v : Nat) : (setField b p o hi lo v s).rel = s.rel := rfl
@[simp] theorem setField_hosts (b p o hi lo v : Nat) : (setField b p o hi lo v s).hosts = s.hosts := rfl
@[simp] theorem setField_vesper (b p o hi lo v : Nat) : (setField b p o hi lo v s).vesper = s.vesper := rfl
@[simp] theorem setField_power (b p o hi lo v : Nat) : (setField b p o hi lo v s).power = s.power := rfl
@[simp] theorem setField_out (b p o hi lo v : Nat) : (setField b p o hi lo v s).out = s.out := rfl
@[simp] theorem setField_core (b p o hi lo v : Nat) (c' : CoreId) : (setField b p o hi lo v s).core c' = s.core c' := rfl
@[simp] theorem setField_chan (b p o hi lo v : Nat) (k : ChanId) : (setField b p o hi lo v s).chan k = s.chan k := rfl
@[simp] theorem setField_objGet (b p o hi lo v : Nat) (o' : Nat) : objGet (setField b p o hi lo v s) o' = objGet s o' := rfl

/-! ### judgeReadiness -/

@[simp] theorem judgeReadiness_pending : (judgeReadiness s).pending = s.pending := rfl
@[simp] theorem judgeReadiness_now : (judgeReadiness s).now = s.now := rfl
@[simp] theorem judgeReadiness_freeCtr : (judgeReadiness s).freeCtr = s.freeCtr := rfl
@[simp] theorem judgeReadiness_mem : (judgeReadiness s).mem = s.mem := rfl
@[simp] theorem judgeReadiness_poison : (judgeReadiness s).poison = s.poison := rfl
@[simp] theorem judgeReadiness_regs : (judgeReadiness s).regs = s.regs := rfl
@[simp] theorem judgeReadiness_latch : (judgeReadiness s).latch = s.latch := rfl
@[simp] theorem judgeReadiness_heldLow : (judgeReadiness s).heldLow = s.heldLow := rfl
@[simp] theorem judgeReadiness_objs : (judgeReadiness s).objs = s.objs := rfl
@[simp] theorem judgeReadiness_cores : (judgeReadiness s).cores = s.cores := rfl
@[simp] theorem judgeReadiness_chans : (judgeReadiness s).chans = s.chans := rfl
@[simp] theorem judgeReadiness_cal : (judgeReadiness s).cal = s.cal := rfl
@[simp] theorem judgeReadiness_mig : (judgeReadiness s).mig = s.mig := rfl
@[simp] theorem judgeReadiness_layers : (judgeReadiness s).layers = s.layers := rfl
@[simp] theorem judgeReadiness_updating : (judgeReadiness s).updating = s.updating := rfl
@[simp] theorem judgeReadiness_red : (judgeReadiness s).red = s.red := rfl
@[simp] theorem judgeReadiness_ick : (judgeReadiness s).ick = s.ick := rfl
@[simp] theorem judgeReadiness_txn : (judgeReadiness s).txn = s.txn := rfl
@[simp] theorem judgeReadiness_rel : (judgeReadiness s).rel = s.rel := rfl
@[simp] theorem judgeReadiness_hosts : (judgeReadiness s).hosts = s.hosts := rfl
@[simp] theorem judgeReadiness_vesper : (judgeReadiness s).vesper = s.vesper := rfl
@[simp] theorem judgeReadiness_power : (judgeReadiness s).power = s.power := rfl
@[simp] theorem judgeReadiness_out : (judgeReadiness s).out = s.out := rfl
@[simp] theorem judgeReadiness_bnd : (judgeReadiness s).bnd = judged s := rfl
@[simp] theorem judged_step : (judged s).step = s.bnd.step := by unfold judged; split <;> rfl
@[simp] theorem judged_credits : (judged s).credits = s.bnd.credits := by unfold judged; split <;> rfl
@[simp] theorem judged_debts : (judged s).debts = s.bnd.debts := by unfold judged; split <;> rfl
@[simp] theorem judged_modeNow : (judged s).modeNow = s.bnd.modeNow := by unfold judged; split <;> rfl

/-! ### objSet -/

@[simp] theorem objSet_pending (o : Nat) (v : W64) : (objSet o v s).pending = s.pending := rfl
@[simp] theorem objSet_now (o : Nat) (v : W64) : (objSet o v s).now = s.now := rfl
@[simp] theorem objSet_freeCtr (o : Nat) (v : W64) : (objSet o v s).freeCtr = s.freeCtr := rfl
@[simp] theorem objSet_mem (o : Nat) (v : W64) : (objSet o v s).mem = s.mem := rfl
@[simp] theorem objSet_poison (o : Nat) (v : W64) : (objSet o v s).poison = s.poison := rfl
@[simp] theorem objSet_regs (o : Nat) (v : W64) : (objSet o v s).regs = s.regs := rfl
@[simp] theorem objSet_latch (o : Nat) (v : W64) : (objSet o v s).latch = s.latch := rfl
@[simp] theorem objSet_heldLow (o : Nat) (v : W64) : (objSet o v s).heldLow = s.heldLow := rfl
@[simp] theorem objSet_cores (o : Nat) (v : W64) : (objSet o v s).cores = s.cores := rfl
@[simp] theorem objSet_chans (o : Nat) (v : W64) : (objSet o v s).chans = s.chans := rfl
@[simp] theorem objSet_cal (o : Nat) (v : W64) : (objSet o v s).cal = s.cal := rfl
@[simp] theorem objSet_mig (o : Nat) (v : W64) : (objSet o v s).mig = s.mig := rfl
@[simp] theorem objSet_layers (o : Nat) (v : W64) : (objSet o v s).layers = s.layers := rfl
@[simp] theorem objSet_updating (o : Nat) (v : W64) : (objSet o v s).updating = s.updating := rfl
@[simp] theorem objSet_red (o : Nat) (v : W64) : (objSet o v s).red = s.red := rfl
@[simp] theorem objSet_ick (o : Nat) (v : W64) : (objSet o v s).ick = s.ick := rfl
@[simp] theorem objSet_txn (o : Nat) (v : W64) : (objSet o v s).txn = s.txn := rfl
@[simp] theorem objSet_rel (o : Nat) (v : W64) : (objSet o v s).rel = s.rel := rfl
@[simp] theorem objSet_hosts (o : Nat) (v : W64) : (objSet o v s).hosts = s.hosts := rfl
@[simp] theorem objSet_vesper (o : Nat) (v : W64) : (objSet o v s).vesper = s.vesper := rfl
@[simp] theorem objSet_power (o : Nat) (v : W64) : (objSet o v s).power = s.power := rfl
@[simp] theorem objSet_out (o : Nat) (v : W64) : (objSet o v s).out = s.out := rfl
@[simp] theorem objSet_core (o : Nat) (v : W64) (c' : CoreId) : (objSet o v s).core c' = s.core c' := rfl
@[simp] theorem objSet_chan (o : Nat) (v : W64) (k : ChanId) : (objSet o v s).chan k = s.chan k := rfl
@[simp] theorem objSet_rawWord (o : Nat) (v : W64) (b' p' o' : Nat) : rawWord (objSet o v s) b' p' o' = rawWord s b' p' o' := rfl

/-! ### objAdd -/

@[simp] theorem objAdd_pending (o : Nat) (v : W64) : (objAdd o v s).pending = s.pending := rfl
@[simp] theorem objAdd_now (o : Nat) (v : W64) : (objAdd o v s).now = s.now := rfl
@[simp] theorem objAdd_freeCtr (o : Nat) (v : W64) : (objAdd o v s).freeCtr = s.freeCtr := rfl
@[simp] theorem objAdd_mem (o : Nat) (v : W64) : (objAdd o v s).mem = s.mem := rfl
@[simp] theorem objAdd_poison (o : Nat) (v : W64) : (objAdd o v s).poison = s.poison := rfl
@[simp] theorem objAdd_regs (o : Nat) (v : W64) : (objAdd o v s).regs = s.regs := rfl
@[simp] theorem objAdd_latch (o : Nat) (v : W64) : (objAdd o v s).latch = s.latch := rfl
@[simp] theorem objAdd_heldLow (o : Nat) (v : W64) : (objAdd o v s).heldLow = s.heldLow := rfl
@[simp] theorem objAdd_cores (o : Nat) (v : W64) : (objAdd o v s).cores = s.cores := rfl
@[simp] theorem objAdd_chans (o : Nat) (v : W64) : (objAdd o v s).chans = s.chans := rfl
@[simp] theorem objAdd_cal (o : Nat) (v : W64) : (objAdd o v s).cal = s.cal := rfl
@[simp] theorem objAdd_mig (o : Nat) (v : W64) : (objAdd o v s).mig = s.mig := rfl
@[simp] theorem objAdd_layers (o : Nat) (v : W64) : (objAdd o v s).layers = s.layers := rfl
@[simp] theorem objAdd_updating (o : Nat) (v : W64) : (objAdd o v s).updating = s.updating := rfl
@[simp] theorem objAdd_red (o : Nat) (v : W64) : (objAdd o v s).red = s.red := rfl
@[simp] theorem objAdd_ick (o : Nat) (v : W64) : (objAdd o v s).ick = s.ick := rfl
@[simp] theorem objAdd_txn (o : Nat) (v : W64) : (objAdd o v s).txn = s.txn := rfl
@[simp] theorem objAdd_rel (o : Nat) (v : W64) : (objAdd o v s).rel = s.rel := rfl
@[simp] theorem objAdd_hosts (o : Nat) (v : W64) : (objAdd o v s).hosts = s.hosts := rfl
@[simp] theorem objAdd_vesper (o : Nat) (v : W64) : (objAdd o v s).vesper = s.vesper := rfl
@[simp] theorem objAdd_power (o : Nat) (v : W64) : (objAdd o v s).power = s.power := rfl
@[simp] theorem objAdd_out (o : Nat) (v : W64) : (objAdd o v s).out = s.out := rfl
@[simp] theorem objAdd_core (o : Nat) (v : W64) (c' : CoreId) : (objAdd o v s).core c' = s.core c' := rfl
@[simp] theorem objAdd_chan (o : Nat) (v : W64) (k : ChanId) : (objAdd o v s).chan k = s.chan k := rfl
@[simp] theorem objAdd_rawWord (o : Nat) (v : W64) (b' p' o' : Nat) : rawWord (objAdd o v s) b' p' o' = rawWord s b' p' o' := rfl

/-! ### modMig -/

@[simp] theorem modMig_pending (f : Mig → Mig) : (modMig f s).pending = s.pending := rfl
@[simp] theorem modMig_now (f : Mig → Mig) : (modMig f s).now = s.now := rfl
@[simp] theorem modMig_freeCtr (f : Mig → Mig) : (modMig f s).freeCtr = s.freeCtr := rfl
@[simp] theorem modMig_mem (f : Mig → Mig) : (modMig f s).mem = s.mem := rfl
@[simp] theorem modMig_poison (f : Mig → Mig) : (modMig f s).poison = s.poison := rfl
@[simp] theorem modMig_regs (f : Mig → Mig) : (modMig f s).regs = s.regs := rfl
@[simp] theorem modMig_latch (f : Mig → Mig) : (modMig f s).latch = s.latch := rfl
@[simp] theorem modMig_heldLow (f : Mig → Mig) : (modMig f s).heldLow = s.heldLow := rfl
@[simp] theorem modMig_objs (f : Mig → Mig) : (modMig f s).objs = s.objs := rfl
@[simp] theorem modMig_cores (f : Mig → Mig) : (modMig f s).cores = s.cores := rfl
@[simp] theorem modMig_chans (f : Mig → Mig) : (modMig f s).chans = s.chans := rfl
@[simp] theorem modMig_cal (f : Mig → Mig) : (modMig f s).cal = s.cal := rfl
@[simp] theorem modMig_mig (f : Mig → Mig) : (modMig f s).mig = f s.mig := rfl
@[simp] theorem modMig_layers (f : Mig → Mig) : (modMig f s).layers = s.layers := rfl
@[simp] theorem modMig_updating (f : Mig → Mig) : (modMig f s).updating = s.updating := rfl
@[simp] theorem modMig_red (f : Mig → Mig) : (modMig f s).red = s.red := rfl
@[simp] theorem modMig_ick (f : Mig → Mig) : (modMig f s).ick = s.ick := rfl
@[simp] theorem modMig_txn (f : Mig → Mig) : (modMig f s).txn = s.txn := rfl
@[simp] theorem modMig_bnd (f : Mig → Mig) : (modMig f s).bnd = s.bnd := rfl
@[simp] theorem modMig_rel (f : Mig → Mig) : (modMig f s).rel = s.rel := rfl
@[simp] theorem modMig_hosts (f : Mig → Mig) : (modMig f s).hosts = s.hosts := rfl
@[simp] theorem modMig_vesper (f : Mig → Mig) : (modMig f s).vesper = s.vesper := rfl
@[simp] theorem modMig_power (f : Mig → Mig) : (modMig f s).power = s.power := rfl
@[simp] theorem modMig_out (f : Mig → Mig) : (modMig f s).out = s.out := rfl
@[simp] theorem modMig_core (f : Mig → Mig) (c' : CoreId) : (modMig f s).core c' = s.core c' := rfl
@[simp] theorem modMig_chan (f : Mig → Mig) (k : ChanId) : (modMig f s).chan k = s.chan k := rfl
@[simp] theorem modMig_rawWord (f : Mig → Mig) (b' p' o' : Nat) : rawWord (modMig f s) b' p' o' = rawWord s b' p' o' := rfl
@[simp] theorem modMig_objGet (f : Mig → Mig) (o' : Nat) : objGet (modMig f s) o' = objGet s o' := rfl

/-! ### calMod -/

@[simp] theorem calMod_pending (n : Nat) (f : CalSlot → CalSlot) : (calMod n f s).pending = s.pending := rfl
@[simp] theorem calMod_now (n : Nat) (f : CalSlot → CalSlot) : (calMod n f s).now = s.now := rfl
@[simp] theorem calMod_freeCtr (n : Nat) (f : CalSlot → CalSlot) : (calMod n f s).freeCtr = s.freeCtr := rfl
@[simp] theorem calMod_mem (n : Nat) (f : CalSlot → CalSlot) : (calMod n f s).mem = s.mem := rfl
@[simp] theorem calMod_poison (n : Nat) (f : CalSlot → CalSlot) : (calMod n f s).poison = s.poison := rfl
@[simp] theorem calMod_regs (n : Nat) (f : CalSlot → CalSlot) : (calMod n f s).regs = s.regs := rfl
@[simp] theorem calMod_latch (n : Nat) (f : CalSlot → CalSlot) : (calMod n f s).latch = s.latch := rfl
@[simp] theorem calMod_heldLow (n : Nat) (f : CalSlot → CalSlot) : (calMod n f s).heldLow = s.heldLow := rfl
@[simp] theorem calMod_objs (n : Nat) (f : CalSlot → CalSlot) : (calMod n f s).objs = s.objs := rfl
@[simp] theorem calMod_cores (n : Nat) (f : CalSlot → CalSlot) : (calMod n f s).cores = s.cores := rfl
@[simp] theorem calMod_chans (n : Nat) (f : CalSlot → CalSlot) : (calMod n f s).chans = s.chans := rfl
@[simp] theorem calMod_mig (n : Nat) (f : CalSlot → CalSlot) : (calMod n f s).mig = s.mig := rfl
@[simp] theorem calMod_layers (n : Nat) (f : CalSlot → CalSlot) : (calMod n f s).layers = s.layers := rfl
@[simp] theorem calMod_updating (n : Nat) (f : CalSlot → CalSlot) : (calMod n f s).updating = s.updating := rfl
@[simp] theorem calMod_red (n : Nat) (f : CalSlot → CalSlot) : (calMod n f s).red = s.red := rfl
@[simp] theorem calMod_ick (n : Nat) (f : CalSlot → CalSlot) : (calMod n f s).ick = s.ick := rfl
@[simp] theorem calMod_txn (n : Nat) (f : CalSlot → CalSlot) : (calMod n f s).txn = s.txn := rfl
@[simp] theorem calMod_bnd (n : Nat) (f : CalSlot → CalSlot) : (calMod n f s).bnd = s.bnd := rfl
@[simp] theorem calMod_rel (n : Nat) (f : CalSlot → CalSlot) : (calMod n f s).rel = s.rel := rfl
@[simp] theorem calMod_hosts (n : Nat) (f : CalSlot → CalSlot) : (calMod n f s).hosts = s.hosts := rfl
@[simp] theorem calMod_vesper (n : Nat) (f : CalSlot → CalSlot) : (calMod n f s).vesper = s.vesper := rfl
@[simp] theorem calMod_power (n : Nat) (f : CalSlot → CalSlot) : (calMod n f s).power = s.power := rfl
@[simp] theorem calMod_out (n : Nat) (f : CalSlot → CalSlot) : (calMod n f s).out = s.out := rfl
@[simp] theorem calMod_core (n : Nat) (f : CalSlot → CalSlot) (c' : CoreId) : (calMod n f s).core c' = s.core c' := rfl
@[simp] theorem calMod_chan (n : Nat) (f : CalSlot → CalSlot) (k : ChanId) : (calMod n f s).chan k = s.chan k := rfl
@[simp] theorem calMod_rawWord (n : Nat) (f : CalSlot → CalSlot) (b' p' o' : Nat) : rawWord (calMod n f s) b' p' o' = rawWord s b' p' o' := rfl
@[simp] theorem calMod_objGet (n : Nat) (f : CalSlot → CalSlot) (o' : Nat) : objGet (calMod n f s) o' = objGet s o' := rfl

/-! ### modIck -/

@[simp] theorem modIck_pending (f : Ick → Ick) : (modIck f s).pending = s.pending := rfl
@[simp] theorem modIck_now (f : Ick → Ick) : (modIck f s).now = s.now := rfl
@[simp] theorem modIck_freeCtr (f : Ick → Ick) : (modIck f s).freeCtr = s.freeCtr := rfl
@[simp] theorem modIck_mem (f : Ick → Ick) : (modIck f s).mem = s.mem := rfl
@[simp] theorem modIck_poison (f : Ick → Ick) : (modIck f s).poison = s.poison := rfl
@[simp] theorem modIck_regs (f : Ick → Ick) : (modIck f s).regs = s.regs := rfl
@[simp] theorem modIck_latch (f : Ick → Ick) : (modIck f s).latch = s.latch := rfl
@[simp] theorem modIck_heldLow (f : Ick → Ick) : (modIck f s).heldLow = s.heldLow := rfl
@[simp] theorem modIck_objs (f : Ick → Ick) : (modIck f s).objs = s.objs := rfl
@[simp] theorem modIck_cores (f : Ick → Ick) : (modIck f s).cores = s.cores := rfl
@[simp] theorem modIck_chans (f : Ick → Ick) : (modIck f s).chans = s.chans := rfl
@[simp] theorem modIck_cal (f : Ick → Ick) : (modIck f s).cal = s.cal := rfl
@[simp] theorem modIck_mig (f : Ick → Ick) : (modIck f s).mig = s.mig := rfl
@[simp] theorem modIck_layers (f : Ick → Ick) : (modIck f s).layers = s.layers := rfl
@[simp] theorem modIck_updating (f : Ick → Ick) : (modIck f s).updating = s.updating := rfl
@[simp] theorem modIck_red (f : Ick → Ick) : (modIck f s).red = s.red := rfl
@[simp] theorem modIck_ick (f : Ick → Ick) : (modIck f s).ick = f s.ick := rfl
@[simp] theorem modIck_txn (f : Ick → Ick) : (modIck f s).txn = s.txn := rfl
@[simp] theorem modIck_bnd (f : Ick → Ick) : (modIck f s).bnd = s.bnd := rfl
@[simp] theorem modIck_rel (f : Ick → Ick) : (modIck f s).rel = s.rel := rfl
@[simp] theorem modIck_hosts (f : Ick → Ick) : (modIck f s).hosts = s.hosts := rfl
@[simp] theorem modIck_vesper (f : Ick → Ick) : (modIck f s).vesper = s.vesper := rfl
@[simp] theorem modIck_power (f : Ick → Ick) : (modIck f s).power = s.power := rfl
@[simp] theorem modIck_out (f : Ick → Ick) : (modIck f s).out = s.out := rfl
@[simp] theorem modIck_core (f : Ick → Ick) (c' : CoreId) : (modIck f s).core c' = s.core c' := rfl
@[simp] theorem modIck_chan (f : Ick → Ick) (k : ChanId) : (modIck f s).chan k = s.chan k := rfl
@[simp] theorem modIck_rawWord (f : Ick → Ick) (b' p' o' : Nat) : rawWord (modIck f s) b' p' o' = rawWord s b' p' o' := rfl
@[simp] theorem modIck_objGet (f : Ick → Ick) (o' : Nat) : objGet (modIck f s) o' = objGet s o' := rfl

/-! ### modTxn -/

@[simp] theorem modTxn_pending (f : Txn → Txn) : (modTxn f s).pending = s.pending := rfl
@[simp] theorem modTxn_now (f : Txn → Txn) : (modTxn f s).now = s.now := rfl
@[simp] theorem modTxn_freeCtr (f : Txn → Txn) : (modTxn f s).freeCtr = s.freeCtr := rfl
@[simp] theorem modTxn_mem (f : Txn → Txn) : (modTxn f s).mem = s.mem := rfl
@[simp] theorem modTxn_poison (f : Txn → Txn) : (modTxn f s).poison = s.poison := rfl
@[simp] theorem modTxn_regs (f : Txn → Txn) : (modTxn f s).regs = s.regs := rfl
@[simp] theorem modTxn_latch (f : Txn → Txn) : (modTxn f s).latch = s.latch := rfl
@[simp] theorem modTxn_heldLow (f : Txn → Txn) : (modTxn f s).heldLow = s.heldLow := rfl
@[simp] theorem modTxn_objs (f : Txn → Txn) : (modTxn f s).objs = s.objs := rfl
@[simp] theorem modTxn_cores (f : Txn → Txn) : (modTxn f s).cores = s.cores := rfl
@[simp] theorem modTxn_chans (f : Txn → Txn) : (modTxn f s).chans = s.chans := rfl
@[simp] theorem modTxn_cal (f : Txn → Txn) : (modTxn f s).cal = s.cal := rfl
@[simp] theorem modTxn_mig (f : Txn → Txn) : (modTxn f s).mig = s.mig := rfl
@[simp] theorem modTxn_layers (f : Txn → Txn) : (modTxn f s).layers = s.layers := rfl
@[simp] theorem modTxn_updating (f : Txn → Txn) : (modTxn f s).updating = s.updating := rfl
@[simp] theorem modTxn_red (f : Txn → Txn) : (modTxn f s).red = s.red := rfl
@[simp] theorem modTxn_ick (f : Txn → Txn) : (modTxn f s).ick = s.ick := rfl
@[simp] theorem modTxn_txn (f : Txn → Txn) : (modTxn f s).txn = f s.txn := rfl
@[simp] theorem modTxn_bnd (f : Txn → Txn) : (modTxn f s).bnd = s.bnd := rfl
@[simp] theorem modTxn_rel (f : Txn → Txn) : (modTxn f s).rel = s.rel := rfl
@[simp] theorem modTxn_hosts (f : Txn → Txn) : (modTxn f s).hosts = s.hosts := rfl
@[simp] theorem modTxn_vesper (f : Txn → Txn) : (modTxn f s).vesper = s.vesper := rfl
@[simp] theorem modTxn_power (f : Txn → Txn) : (modTxn f s).power = s.power := rfl
@[simp] theorem modTxn_out (f : Txn → Txn) : (modTxn f s).out = s.out := rfl
@[simp] theorem modTxn_core (f : Txn → Txn) (c' : CoreId) : (modTxn f s).core c' = s.core c' := rfl
@[simp] theorem modTxn_chan (f : Txn → Txn) (k : ChanId) : (modTxn f s).chan k = s.chan k := rfl
@[simp] theorem modTxn_rawWord (f : Txn → Txn) (b' p' o' : Nat) : rawWord (modTxn f s) b' p' o' = rawWord s b' p' o' := rfl
@[simp] theorem modTxn_objGet (f : Txn → Txn) (o' : Nat) : objGet (modTxn f s) o' = objGet s o' := rfl

/-! ### modRed -/

@[simp] theorem modRed_pending (f : Red → Red) : (modRed f s).pending = s.pending := rfl
@[simp] theorem modRed_now (f : Red → Red) : (modRed f s).now = s.now := rfl
@[simp] theorem modRed_freeCtr (f : Red → Red) : (modRed f s).freeCtr = s.freeCtr := rfl
@[simp] theorem modRed_mem (f : Red → Red) : (modRed f s).mem = s.mem := rfl
@[simp] theorem modRed_poison (f : Red → Red) : (modRed f s).poison = s.poison := rfl
@[simp] theorem modRed_regs (f : Red → Red) : (modRed f s).regs = s.regs := rfl
@[simp] theorem modRed_latch (f : Red → Red) : (modRed f s).latch = s.latch := rfl
@[simp] theorem modRed_heldLow (f : Red → Red) : (modRed f s).heldLow = s.heldLow := rfl
@[simp] theorem modRed_objs (f : Red → Red) : (modRed f s).objs = s.objs := rfl
@[simp] theorem modRed_cores (f : Red → Red) : (modRed f s).cores = s.cores := rfl
@[simp] theorem modRed_chans (f : Red → Red) : (modRed f s).chans = s.chans := rfl
@[simp] theorem modRed_cal (f : Red → Red) : (modRed f s).cal = s.cal := rfl
@[simp] theorem modRed_mig (f : Red → Red) : (modRed f s).mig = s.mig := rfl
@[simp] theorem modRed_layers (f : Red → Red) : (modRed f s).layers = s.layers := rfl
@[simp] theorem modRed_updating (f : Red → Red) : (modRed f s).updating = s.updating := rfl
@[simp] theorem modRed_red (f : Red → Red) : (modRed f s).red = f s.red := rfl
@[simp] theorem modRed_ick (f : Red → Red) : (modRed f s).ick = s.ick := rfl
@[simp] theorem modRed_txn (f : Red → Red) : (modRed f s).txn = s.txn := rfl
@[simp] theorem modRed_bnd (f : Red → Red) : (modRed f s).bnd = s.bnd := rfl
@[simp] theorem modRed_rel (f : Red → Red) : (modRed f s).rel = s.rel := rfl
@[simp] theorem modRed_hosts (f : Red → Red) : (modRed f s).hosts = s.hosts := rfl
@[simp] theorem modRed_vesper (f : Red → Red) : (modRed f s).vesper = s.vesper := rfl
@[simp] theorem modRed_power (f : Red → Red) : (modRed f s).power = s.power := rfl
@[simp] theorem modRed_out (f : Red → Red) : (modRed f s).out = s.out := rfl
@[simp] theorem modRed_core (f : Red → Red) (c' : CoreId) : (modRed f s).core c' = s.core c' := rfl
@[simp] theorem modRed_chan (f : Red → Red) (k : ChanId) : (modRed f s).chan k = s.chan k := rfl
@[simp] theorem modRed_rawWord (f : Red → Red) (b' p' o' : Nat) : rawWord (modRed f s) b' p' o' = rawWord s b' p' o' := rfl
@[simp] theorem modRed_objGet (f : Red → Red) (o' : Nat) : objGet (modRed f s) o' = objGet s o' := rfl

/-! ### lyrMod -/

@[simp] theorem lyrMod_pending (n : Nat) (f : Layer → Layer) : (lyrMod n f s).pending = s.pending := rfl
@[simp] theorem lyrMod_now (n : Nat) (f : Layer → Layer) : (lyrMod n f s).now = s.now := rfl
@[simp] theorem lyrMod_freeCtr (n : Nat) (f : Layer → Layer) : (lyrMod n f s).freeCtr = s.freeCtr := rfl
@[simp] theorem lyrMod_mem (n : Nat) (f : Layer → Layer) : (lyrMod n f s).mem = s.mem := rfl
@[simp] theorem lyrMod_poison (n : Nat) (f : Layer → Layer) : (lyrMod n f s).poison = s.poison := rfl
@[simp] theorem lyrMod_regs (n : Nat) (f : Layer → Layer) : (lyrMod n f s).regs = s.regs := rfl
@[simp] theorem lyrMod_latch (n : Nat) (f : Layer → Layer) : (lyrMod n f s).latch = s.latch := rfl
@[simp] theorem lyrMod_heldLow (n : Nat) (f : Layer → Layer) : (lyrMod n f s).heldLow = s.heldLow := rfl
@[simp] theorem lyrMod_objs (n : Nat) (f : Layer → Layer) : (lyrMod n f s).objs = s.objs := rfl
@[simp] theorem lyrMod_cores (n : Nat) (f : Layer → Layer) : (lyrMod n f s).cores = s.cores := rfl
@[simp] theorem lyrMod_chans (n : Nat) (f : Layer → Layer) : (lyrMod n f s).chans = s.chans := rfl
@[simp] theorem lyrMod_cal (n : Nat) (f : Layer → Layer) : (lyrMod n f s).cal = s.cal := rfl
@[simp] theorem lyrMod_mig (n : Nat) (f : Layer → Layer) : (lyrMod n f s).mig = s.mig := rfl
@[simp] theorem lyrMod_updating (n : Nat) (f : Layer → Layer) : (lyrMod n f s).updating = s.updating := rfl
@[simp] theorem lyrMod_red (n : Nat) (f : Layer → Layer) : (lyrMod n f s).red = s.red := rfl
@[simp] theorem lyrMod_ick (n : Nat) (f : Layer → Layer) : (lyrMod n f s).ick = s.ick := rfl
@[simp] theorem lyrMod_txn (n : Nat) (f : Layer → Layer) : (lyrMod n f s).txn = s.txn := rfl
@[simp] theorem lyrMod_bnd (n : Nat) (f : Layer → Layer) : (lyrMod n f s).bnd = s.bnd := rfl
@[simp] theorem lyrMod_rel (n : Nat) (f : Layer → Layer) : (lyrMod n f s).rel = s.rel := rfl
@[simp] theorem lyrMod_hosts (n : Nat) (f : Layer → Layer) : (lyrMod n f s).hosts = s.hosts := rfl
@[simp] theorem lyrMod_vesper (n : Nat) (f : Layer → Layer) : (lyrMod n f s).vesper = s.vesper := rfl
@[simp] theorem lyrMod_power (n : Nat) (f : Layer → Layer) : (lyrMod n f s).power = s.power := rfl
@[simp] theorem lyrMod_out (n : Nat) (f : Layer → Layer) : (lyrMod n f s).out = s.out := rfl
@[simp] theorem lyrMod_core (n : Nat) (f : Layer → Layer) (c' : CoreId) : (lyrMod n f s).core c' = s.core c' := rfl
@[simp] theorem lyrMod_chan (n : Nat) (f : Layer → Layer) (k : ChanId) : (lyrMod n f s).chan k = s.chan k := rfl
@[simp] theorem lyrMod_rawWord (n : Nat) (f : Layer → Layer) (b' p' o' : Nat) : rawWord (lyrMod n f s) b' p' o' = rawWord s b' p' o' := rfl
@[simp] theorem lyrMod_objGet (n : Nat) (f : Layer → Layer) (o' : Nat) : objGet (lyrMod n f s) o' = objGet s o' := rfl

/-! ### modBnd -/

@[simp] theorem modBnd_pending (f : Bnd → Bnd) : (modBnd f s).pending = s.pending := rfl
@[simp] theorem modBnd_now (f : Bnd → Bnd) : (modBnd f s).now = s.now := rfl
@[simp] theorem modBnd_freeCtr (f : Bnd → Bnd) : (modBnd f s).freeCtr = s.freeCtr := rfl
@[simp] theorem modBnd_mem (f : Bnd → Bnd) : (modBnd f s).mem = s.mem := rfl
@[simp] theorem modBnd_poison (f : Bnd → Bnd) : (modBnd f s).poison = s.poison := rfl
@[simp] theorem modBnd_regs (f : Bnd → Bnd) : (modBnd f s).regs = s.regs := rfl
@[simp] theorem modBnd_latch (f : Bnd → Bnd) : (modBnd f s).latch = s.latch := rfl
@[simp] theorem modBnd_heldLow (f : Bnd → Bnd) : (modBnd f s).heldLow = s.heldLow := rfl
@[simp] theorem modBnd_objs (f : Bnd → Bnd) : (modBnd f s).objs = s.objs := rfl
@[simp] theorem modBnd_cores (f : Bnd → Bnd) : (modBnd f s).cores = s.cores := rfl
@[simp] theorem modBnd_chans (f : Bnd → Bnd) : (modBnd f s).chans = s.chans := rfl
@[simp] theorem modBnd_cal (f : Bnd → Bnd) : (modBnd f s).cal = s.cal := rfl
@[simp] theorem modBnd_mig (f : Bnd → Bnd) : (modBnd f s).mig = s.mig := rfl
@[simp] theorem modBnd_layers (f : Bnd → Bnd) : (modBnd f s).layers = s.layers := rfl
@[simp] theorem modBnd_updating (f : Bnd → Bnd) : (modBnd f s).updating = s.updating := rfl
@[simp] theorem modBnd_red (f : Bnd → Bnd) : (modBnd f s).red = s.red := rfl
@[simp] theorem modBnd_ick (f : Bnd → Bnd) : (modBnd f s).ick = s.ick := rfl
@[simp] theorem modBnd_txn (f : Bnd → Bnd) : (modBnd f s).txn = s.txn := rfl
@[simp] theorem modBnd_bnd (f : Bnd → Bnd) : (modBnd f s).bnd = f s.bnd := rfl
@[simp] theorem modBnd_rel (f : Bnd → Bnd) : (modBnd f s).rel = s.rel := rfl
@[simp] theorem modBnd_hosts (f : Bnd → Bnd) : (modBnd f s).hosts = s.hosts := rfl
@[simp] theorem modBnd_vesper (f : Bnd → Bnd) : (modBnd f s).vesper = s.vesper := rfl
@[simp] theorem modBnd_power (f : Bnd → Bnd) : (modBnd f s).power = s.power := rfl
@[simp] theorem modBnd_out (f : Bnd → Bnd) : (modBnd f s).out = s.out := rfl
@[simp] theorem modBnd_core (f : Bnd → Bnd) (c' : CoreId) : (modBnd f s).core c' = s.core c' := rfl
@[simp] theorem modBnd_chan (f : Bnd → Bnd) (k : ChanId) : (modBnd f s).chan k = s.chan k := rfl
@[simp] theorem modBnd_rawWord (f : Bnd → Bnd) (b' p' o' : Nat) : rawWord (modBnd f s) b' p' o' = rawWord s b' p' o' := rfl
@[simp] theorem modBnd_objGet (f : Bnd → Bnd) (o' : Nat) : objGet (modBnd f s) o' = objGet s o' := rfl

/-! ### modPower -/

@[simp] theorem modPower_pending (f : Power → Power) : (modPower f s).pending = s.pending := rfl
@[simp] theorem modPower_now (f : Power → Power) : (modPower f s).now = s.now := rfl
@[simp] theorem modPower_freeCtr (f : Power → Power) : (modPower f s).freeCtr = s.freeCtr := rfl
@[simp] theorem modPower_mem (f : Power → Power) : (modPower f s).mem = s.mem := rfl
@[simp] theorem modPower_poison (f : Power → Power) : (modPower f s).poison = s.poison := rfl
@[simp] theorem modPower_regs (f : Power → Power) : (modPower f s).regs = s.regs := rfl
@[simp] theorem modPower_latch (f : Power → Power) : (modPower f s).latch = s.latch := rfl
@[simp] theorem modPower_heldLow (f : Power → Power) : (modPower f s).heldLow = s.heldLow := rfl
@[simp] theorem modPower_objs (f : Power → Power) : (modPower f s).objs = s.objs := rfl
@[simp] theorem modPower_cores (f : Power → Power) : (modPower f s).cores = s.cores := rfl
@[simp] theorem modPower_chans (f : Power → Power) : (modPower f s).chans = s.chans := rfl
@[simp] theorem modPower_cal (f : Power → Power) : (modPower f s).cal = s.cal := rfl
@[simp] theorem modPower_mig (f : Power → Power) : (modPower f s).mig = s.mig := rfl
@[simp] theorem modPower_layers (f : Power → Power) : (modPower f s).layers = s.layers := rfl
@[simp] theorem modPower_updating (f : Power → Power) : (modPower f s).updating = s.updating := rfl
@[simp] theorem modPower_red (f : Power → Power) : (modPower f s).red = s.red := rfl
@[simp] theorem modPower_ick (f : Power → Power) : (modPower f s).ick = s.ick := rfl
@[simp] theorem modPower_txn (f : Power → Power) : (modPower f s).txn = s.txn := rfl
@[simp] theorem modPower_bnd (f : Power → Power) : (modPower f s).bnd = s.bnd := rfl
@[simp] theorem modPower_rel (f : Power → Power) : (modPower f s).rel = s.rel := rfl
@[simp] theorem modPower_hosts (f : Power → Power) : (modPower f s).hosts = s.hosts := rfl
@[simp] theorem modPower_vesper (f : Power → Power) : (modPower f s).vesper = s.vesper := rfl
@[simp] theorem modPower_power (f : Power → Power) : (modPower f s).power = f s.power := rfl
@[simp] theorem modPower_out (f : Power → Power) : (modPower f s).out = s.out := rfl
@[simp] theorem modPower_core (f : Power → Power) (c' : CoreId) : (modPower f s).core c' = s.core c' := rfl
@[simp] theorem modPower_chan (f : Power → Power) (k : ChanId) : (modPower f s).chan k = s.chan k := rfl
@[simp] theorem modPower_rawWord (f : Power → Power) (b' p' o' : Nat) : rawWord (modPower f s) b' p' o' = rawWord s b' p' o' := rfl
@[simp] theorem modPower_objGet (f : Power → Power) (o' : Nat) : objGet (modPower f s) o' = objGet s o' := rfl

/-! ### modRel -/

@[simp] theorem modRel_pending (f : Rel → Rel) : (modRel f s).pending = s.pending := rfl
@[simp] theorem modRel_now (f : Rel → Rel) : (modRel f s).now = s.now := rfl
@[simp] theorem modRel_freeCtr (f : Rel → Rel) : (modRel f s).freeCtr = s.freeCtr := rfl
@[simp] theorem modRel_mem (f : Rel → Rel) : (modRel f s).mem = s.mem := rfl
@[simp] theorem modRel_poison (f : Rel → Rel) : (modRel f s).poison = s.poison := rfl
@[simp] theorem modRel_regs (f : Rel → Rel) : (modRel f s).regs = s.regs := rfl
@[simp] theorem modRel_latch (f : Rel → Rel) : (modRel f s).latch = s.latch := rfl
@[simp] theorem modRel_heldLow (f : Rel → Rel) : (modRel f s).heldLow = s.heldLow := rfl
@[simp] theorem modRel_objs (f : Rel → Rel) : (modRel f s).objs = s.objs := rfl
@[simp] theorem modRel_cores (f : Rel → Rel) : (modRel f s).cores = s.cores := rfl
@[simp] theorem modRel_chans (f : Rel → Rel) : (modRel f s).chans = s.chans := rfl
@[simp] theorem modRel_cal (f : Rel → Rel) : (modRel f s).cal = s.cal := rfl
@[simp] theorem modRel_mig (f : Rel → Rel) : (modRel f s).mig = s.mig := rfl
@[simp] theorem modRel_layers (f : Rel → Rel) : (modRel f s).layers = s.layers := rfl
@[simp] theorem modRel_updating (f : Rel → Rel) : (modRel f s).updating = s.updating := rfl
@[simp] theorem modRel_red (f : Rel → Rel) : (modRel f s).red = s.red := rfl
@[simp] theorem modRel_ick (f : Rel → Rel) : (modRel f s).ick = s.ick := rfl
@[simp] theorem modRel_txn (f : Rel → Rel) : (modRel f s).txn = s.txn := rfl
@[simp] theorem modRel_bnd (f : Rel → Rel) : (modRel f s).bnd = s.bnd := rfl
@[simp] theorem modRel_rel (f : Rel → Rel) : (modRel f s).rel = f s.rel := rfl
@[simp] theorem modRel_hosts (f : Rel → Rel) : (modRel f s).hosts = s.hosts := rfl
@[simp] theorem modRel_vesper (f : Rel → Rel) : (modRel f s).vesper = s.vesper := rfl
@[simp] theorem modRel_power (f : Rel → Rel) : (modRel f s).power = s.power := rfl
@[simp] theorem modRel_out (f : Rel → Rel) : (modRel f s).out = s.out := rfl
@[simp] theorem modRel_core (f : Rel → Rel) (c' : CoreId) : (modRel f s).core c' = s.core c' := rfl
@[simp] theorem modRel_chan (f : Rel → Rel) (k : ChanId) : (modRel f s).chan k = s.chan k := rfl
@[simp] theorem modRel_rawWord (f : Rel → Rel) (b' p' o' : Nat) : rawWord (modRel f s) b' p' o' = rawWord s b' p' o' := rfl
@[simp] theorem modRel_objGet (f : Rel → Rel) (o' : Nat) : objGet (modRel f s) o' = objGet s o' := rfl

/-! ### modVesper -/

@[simp] theorem modVesper_pending (f : Vesper → Vesper) : (modVesper f s).pending = s.pending := rfl
@[simp] theorem modVesper_now (f : Vesper → Vesper) : (modVesper f s).now = s.now := rfl
@[simp] theorem modVesper_freeCtr (f : Vesper → Vesper) : (modVesper f s).freeCtr = s.freeCtr := rfl
@[simp] theorem modVesper_mem (f : Vesper → Vesper) : (modVesper f s).mem = s.mem := rfl
@[simp] theorem modVesper_poison (f : Vesper → Vesper) : (modVesper f s).poison = s.poison := rfl
@[simp] theorem modVesper_regs (f : Vesper → Vesper) : (modVesper f s).regs = s.regs := rfl
@[simp] theorem modVesper_latch (f : Vesper → Vesper) : (modVesper f s).latch = s.latch := rfl
@[simp] theorem modVesper_heldLow (f : Vesper → Vesper) : (modVesper f s).heldLow = s.heldLow := rfl
@[simp] theorem modVesper_objs (f : Vesper → Vesper) : (modVesper f s).objs = s.objs := rfl
@[simp] theorem modVesper_cores (f : Vesper → Vesper) : (modVesper f s).cores = s.cores := rfl
@[simp] theorem modVesper_chans (f : Vesper → Vesper) : (modVesper f s).chans = s.chans := rfl
@[simp] theorem modVesper_cal (f : Vesper → Vesper) : (modVesper f s).cal = s.cal := rfl
@[simp] theorem modVesper_mig (f : Vesper → Vesper) : (modVesper f s).mig = s.mig := rfl
@[simp] theorem modVesper_layers (f : Vesper → Vesper) : (modVesper f s).layers = s.layers := rfl
@[simp] theorem modVesper_updating (f : Vesper → Vesper) : (modVesper f s).updating = s.updating := rfl
@[simp] theorem modVesper_red (f : Vesper → Vesper) : (modVesper f s).red = s.red := rfl
@[simp] theorem modVesper_ick (f : Vesper → Vesper) : (modVesper f s).ick = s.ick := rfl
@[simp] theorem modVesper_txn (f : Vesper → Vesper) : (modVesper f s).txn = s.txn := rfl
@[simp] theorem modVesper_bnd (f : Vesper → Vesper) : (modVesper f s).bnd = s.bnd := rfl
@[simp] theorem modVesper_rel (f : Vesper → Vesper) : (modVesper f s).rel = s.rel := rfl
@[simp] theorem modVesper_hosts (f : Vesper → Vesper) : (modVesper f s).hosts = s.hosts := rfl
@[simp] theorem modVesper_vesper (f : Vesper → Vesper) : (modVesper f s).vesper = f s.vesper := rfl
@[simp] theorem modVesper_power (f : Vesper → Vesper) : (modVesper f s).power = s.power := rfl
@[simp] theorem modVesper_out (f : Vesper → Vesper) : (modVesper f s).out = s.out := rfl
@[simp] theorem modVesper_core (f : Vesper → Vesper) (c' : CoreId) : (modVesper f s).core c' = s.core c' := rfl
@[simp] theorem modVesper_chan (f : Vesper → Vesper) (k : ChanId) : (modVesper f s).chan k = s.chan k := rfl
@[simp] theorem modVesper_rawWord (f : Vesper → Vesper) (b' p' o' : Nat) : rawWord (modVesper f s) b' p' o' = rawWord s b' p' o' := rfl
@[simp] theorem modVesper_objGet (f : Vesper → Vesper) (o' : Nat) : objGet (modVesper f s) o' = objGet s o' := rfl

/-! ### What an update changes -/

theorem vget_eq {α : Type} {n : Nat} (v : Vector α n) (i : Fin n) : v.get i = v[i.val] := rfl

@[simp] theorem setCore_core_same (c : CoreId) (x : Core) : (setCore c x s).core c = x := by
  simp [State.core, setCore, vget_eq]

theorem setCore_core_other (c d : CoreId) (x : Core) (h : d ≠ c) : (setCore c x s).core d = s.core d := by
  have h' : c.val ≠ d.val := fun e => h (Fin.ext e.symm)
  simp only [State.core, setCore, vget_eq]; exact Vector.getElem_set_ne _ _ h'

@[simp] theorem modCore_core_same (c : CoreId) (f : Core → Core) : (modCore c f s).core c = f (s.core c) := setCore_core_same s c _

theorem modCore_core_other (c d : CoreId) (f : Core → Core) (h : d ≠ c) : (modCore c f s).core d = s.core d :=
  setCore_core_other s c d _ h

@[simp] theorem setChan_chan_same (k : ChanId) (x : Chan) : (setChan k x s).chan k = x := by
  simp [State.chan, setChan, vget_eq]

theorem setChan_chan_other (k j : ChanId) (x : Chan) (h : j ≠ k) : (setChan k x s).chan j = s.chan j := by
  have h' : k.val ≠ j.val := fun e => h (Fin.ext e.symm)
  simp only [State.chan, setChan, vget_eq]; exact Vector.getElem_set_ne _ _ h'

@[simp] theorem modChan_chan_same (k : ChanId) (f : Chan → Chan) : (modChan k f s).chan k = f (s.chan k) := setChan_chan_same s k _

theorem modChan_chan_other (k j : ChanId) (f : Chan → Chan) (h : j ≠ k) : (modChan k f s).chan j = s.chan j :=
  setChan_chan_other s k j _ h

@[simp] theorem modHost_hosts_same (p : Fin 2) (f : HPort → HPort) : (modHost p f s).hosts.get p = f (s.hosts.get p) := by
  simp [modHost, vget_eq]

theorem modHost_hosts_other (p q : Fin 2) (f : HPort → HPort) (h : q ≠ p) : (modHost p f s).hosts.get q = s.hosts.get q := by
  have h' : p.val ≠ q.val := fun e => h (Fin.ext e.symm)
  simp only [modHost, vget_eq]; exact Vector.getElem_set_ne _ _ h'

/-! ### Register words -/

/-- A register word reads back as it was stored. -/
@[simp] theorem rawWord_setWord_same (b p o v : Nat) : rawWord (setWord b p o v s) b p o = v % 2 ^ 32 := by
  simp [rawWord, setWord, mfind_mset_same]

/-- A stored register word leaves the words of other keys alone. -/
theorem rawWord_setWord_key (b p o v b' p' o' : Nat) (h : rkey b' p' o' ≠ rkey b p o) (hc : rkey cfgBank p' o' ≠ rkey b p o) :
    rawWord (setWord b p o v s) b' p' o' = rawWord s b' p' o' := by
  simp [rawWord, setWord, mfind_mset_other _ _ _ _ h, mfind_mset_other _ _ _ _ hc]

/-- Keys of different words of the register pages differ. -/
theorem rkey_ne (b p o b' p' o' : Nat) (hp : p < 16384) (ho : o < 4096) (hp' : p' < 16384) (ho' : o' < 4096)
    (h : b' ≠ b ∨ p' ≠ p ∨ o' / 4 ≠ o / 4) : rkey b' p' o' ≠ rkey b p o := by
  unfold rkey; omega

/-- A word stored outside the configuration bank leaves every other word alone. -/
theorem rawWord_setWord_other (b p o v b' p' o' : Nat) (hb : b ≠ cfgBank) (hp : p < 16384) (ho : o < 4096) (hp' : p' < 16384)
    (ho' : o' < 4096) (h : b' ≠ b ∨ p' ≠ p ∨ o' / 4 ≠ o / 4) :
    rawWord (setWord b p o v s) b' p' o' = rawWord s b' p' o' :=
  rawWord_setWord_key s b p o v b' p' o' (rkey_ne b p o b' p' o' hp ho hp' ho' h)
    (rkey_ne b p o cfgBank p' o' hp ho hp' ho' (Or.inl (Ne.symm hb)))

/-! ### Synchronisation objects -/

/-- Judging readiness changes the two fields that note it. -/
theorem judged_frame : judged s = { s.bnd with kept := (judged s).kept, readyAt := (judged s).readyAt } := by
  unfold judged
  split <;> rfl

/-- Setting an object changes the object and what the module has noted of its readiness. -/
theorem objSet_frame (o : Nat) (v : W64) :
    objSet o v s = { s with objs := mput (0 : W64) s.objs o v, bnd := (objSet o v s).bnd } := rfl

@[simp] theorem objGet_objSet_same (o : Nat) (v : W64) : objGet (objSet o v s) o = v := by simp [objGet, objSet]

theorem objGet_objSet_other (o o' : Nat) (v : W64) (h : o' ≠ o) : objGet (objSet o v s) o' = objGet s o' := by
  simp [objGet, objSet, mget_mput_other _ _ _ _ _ h]

@[simp] theorem objGet_objAdd_same (o : Nat) (v : W64) : objGet (objAdd o v s) o = objGet s o + v := by simp [objAdd]

theorem objGet_objAdd_other (o o' : Nat) (v : W64) (h : o' ≠ o) : objGet (objAdd o v s) o' = objGet s o' := by
  simp [objAdd, objGet_objSet_other _ _ _ _ h]

/-! ### Events -/

theorem signalVector_frame (p : Fin 2) (f : Fin 65) (v : Nat) :
    signalVector p f v s = { s with hosts := (signalVector p f v s).hosts } := by
  unfold signalVector; split <;> rfl

theorem eventVector_frame (p : Fin 2) : eventVector p s = { s with hosts := (eventVector p s).hosts } := by
  unfold eventVector; dsimp only; split
  · exact signalVector_frame s p 0 _
  · rfl

theorem captureEvent_frame (page flag : Nat) (cap : List Nat) :
    captureEvent page flag cap s = { s with regs := (captureEvent page flag cap s).regs } := by
  unfold captureEvent; split <;> rfl

theorem forwardReport_frame (page flag : Nat) (cap : List Nat) (b : Bool) :
    forwardReport page flag cap b s = { s with rel := (forwardReport page flag cap b s).rel } := by
  unfold forwardReport; dsimp only; split
  · rfl
  · split
    · rfl
    · split <;> rfl

/-- An event changes register words of its page, the reports that wait and the vectors signalled, and nothing else. -/
theorem logEvent_frame (page flag : Nat) (cap : List Nat) :
    logEvent page flag cap s =
      { s with regs := (logEvent page flag cap s).regs, rel := (logEvent page flag cap s).rel,
               hosts := (logEvent page flag cap s).hosts } := by
  unfold logEvent
  dsimp only
  generalize hs : setWord 0 page (0x020 + 4 * flag) _ _ = s1
  have h1 : s1 = { s with regs := s1.regs } := by rw [← hs]; rfl
  have h2 := captureEvent_frame s1 page flag cap
  generalize captureEvent page flag cap s1 = s2 at h2
  have h3 := forwardReport_frame s2 page flag cap (!bitOf (rawWord s 0 page 0x00C) 0)
  generalize forwardReport page flag cap (!bitOf (rawWord s 0 page 0x00C) 0) s2 = s3 at h3
  have h4 := eventVector_frame s3 0
  generalize eventVector 0 s3 = s4 at h4
  have h5 := eventVector_frame s4 1
  generalize eventVector 1 s4 = s5 at h5
  split
  · rw [h3, h2, h1]
  · rw [h5, h4, h3, h2, h1]

@[simp] theorem logEvent_pending (p k : Nat) (cap : List Nat) : (logEvent p k cap s).pending = s.pending := by rw [logEvent_frame]
@[simp] theorem logEvent_now (p k : Nat) (cap : List Nat) : (logEvent p k cap s).now = s.now := by rw [logEvent_frame]
@[simp] theorem logEvent_freeCtr (p k : Nat) (cap : List Nat) : (logEvent p k cap s).freeCtr = s.freeCtr := by rw [logEvent_frame]
@[simp] theorem logEvent_mem (p k : Nat) (cap : List Nat) : (logEvent p k cap s).mem = s.mem := by rw [logEvent_frame]
@[simp] theorem logEvent_poison (p k : Nat) (cap : List Nat) : (logEvent p k cap s).poison = s.poison := by rw [logEvent_frame]
@[simp] theorem logEvent_latch (p k : Nat) (cap : List Nat) : (logEvent p k cap s).latch = s.latch := by rw [logEvent_frame]
@[simp] theorem logEvent_heldLow (p k : Nat) (cap : List Nat) : (logEvent p k cap s).heldLow = s.heldLow := by rw [logEvent_frame]
@[simp] theorem logEvent_objs (p k : Nat) (cap : List Nat) : (logEvent p k cap s).objs = s.objs := by rw [logEvent_frame]
@[simp] theorem logEvent_cores (p k : Nat) (cap : List Nat) : (logEvent p k cap s).cores = s.cores := by rw [logEvent_frame]
@[simp] theorem logEvent_chans (p k : Nat) (cap : List Nat) : (logEvent p k cap s).chans = s.chans := by rw [logEvent_frame]
@[simp] theorem logEvent_cal (p k : Nat) (cap : List Nat) : (logEvent p k cap s).cal = s.cal := by rw [logEvent_frame]
@[simp] theorem logEvent_mig (p k : Nat) (cap : List Nat) : (logEvent p k cap s).mig = s.mig := by rw [logEvent_frame]
@[simp] theorem logEvent_layers (p k : Nat) (cap : List Nat) : (logEvent p k cap s).layers = s.layers := by rw [logEvent_frame]
@[simp] theorem logEvent_updating (p k : Nat) (cap : List Nat) : (logEvent p k cap s).updating = s.updating := by rw [logEvent_frame]
@[simp] theorem logEvent_red (p k : Nat) (cap : List Nat) : (logEvent p k cap s).red = s.red := by rw [logEvent_frame]
@[simp] theorem logEvent_ick (p k : Nat) (cap : List Nat) : (logEvent p k cap s).ick = s.ick := by rw [logEvent_frame]
@[simp] theorem logEvent_txn (p k : Nat) (cap : List Nat) : (logEvent p k cap s).txn = s.txn := by rw [logEvent_frame]
@[simp] theorem logEvent_bnd (p k : Nat) (cap : List Nat) : (logEvent p k cap s).bnd = s.bnd := by rw [logEvent_frame]
@[simp] theorem logEvent_vesper (p k : Nat) (cap : List Nat) : (logEvent p k cap s).vesper = s.vesper := by rw [logEvent_frame]
@[simp] theorem logEvent_power (p k : Nat) (cap : List Nat) : (logEvent p k cap s).power = s.power := by rw [logEvent_frame]
@[simp] theorem logEvent_out (p k : Nat) (cap : List Nat) : (logEvent p k cap s).out = s.out := by rw [logEvent_frame]
@[simp] theorem logEvent_core (p k : Nat) (cap : List Nat) (c : CoreId) : (logEvent p k cap s).core c = s.core c := by
  simp [State.core]
@[simp] theorem logEvent_chan (p k : Nat) (cap : List Nat) (c : ChanId) : (logEvent p k cap s).chan c = s.chan c := by
  simp [State.chan]
@[simp] theorem logEvent_objGet (p k : Nat) (cap : List Nat) (o : Nat) : objGet (logEvent p k cap s) o = objGet s o := by
  simp [objGet]

end Sys2Proof.Machine
end

