-- ==== Sys2Proof/Laws/Control.lean ====
section
/-! SUPPORT. What the shared operations of the control core do: issue, results, skips. -/
namespace Sys2Proof.Machine

variable (s : State) (c : CoreId)

theorem coreP_lt (b : Nat) (h : b < 64) : coreP c b < 16384 := by
  unfold coreP; have := c.isLt; omega

/-! ### Words of the control page -/

theorem WordsKept.refl (p : Nat) (l : List Nat) : WordsKept p l s s := fun _ _ _ _ _ _ => rfl

theorem WordsKept.trans {p : Nat} {l : List Nat} {s t u : State} (h : WordsKept p l s t) (k : WordsKept p l t u) :
    WordsKept p l s u :=
  fun b q o hq ho hn => (k b q o hq ho hn).trans (h b q o hq ho hn)

theorem WordsKept.mono {p : Nat} {l m : List Nat} {s t : State} (h : WordsKept p l s t) (hl : ∀ x ∈ l, x ∈ m) :
    WordsKept p m s t :=
  fun b q o hq ho hn => h b q o hq ho (hn.imp_right (fun k x => k (hl _ x)))

theorem setWord_wordsKept (page o v : Nat) (hp : page < 16384) (ho : o < 4096) :
    WordsKept page [o / 4 * 4] s (setWord 0 page o v s) :=
  fun b p o' hq ho' hn =>
    rawWord_setWord_other s 0 page o v b p o' (by decide) hp ho hq ho' (by
      rcases hn with h | h
      · exact Or.inr (Or.inl h)
      · refine Or.inr (Or.inr (fun e => h ?_)); simp [e])

theorem setPair_wordsKept (page o v : Nat) (l : List Nat) (hp : page < 16384) (ho : o + 4 < 4096) (h1 : o / 4 * 4 ∈ l)
    (h2 : (o + 4) / 4 * 4 ∈ l) : WordsKept page l s (setPair 0 page o v s) := by
  unfold setPair
  exact ((setWord_wordsKept s page o _ hp (by omega)).mono (by simpa using h1)).trans
    ((setWord_wordsKept _ page (o + 4) _ hp ho).mono (by simpa using h2))

theorem bumpPair_wordsKept (page o n : Nat) (l : List Nat) (hp : page < 16384) (ho : o + 4 < 4096) (h1 : o / 4 * 4 ∈ l)
    (h2 : (o + 4) / 4 * 4 ∈ l) : WordsKept page l s (bumpPair page o n s) :=
  setPair_wordsKept s page o _ l hp ho h1 h2

/-! ### Scalar registers -/

@[simp] theorem sget_sset_same (r : Nat) (v : W64) (k : Core) : sget (sset r v k) r = if r = 0 then 0 else v := by
  by_cases h : r = 0 <;> simp [sget, sset, h]

theorem sget_sset_other (r q : Nat) (v : W64) (k : Core) (h : q ≠ r) : sget (sset r v k) q = sget k q := by
  by_cases hr : r = 0
  · simp [sset, hr]
  · simp [sget, sset, hr, mget_mput_other _ _ _ _ _ h]

@[simp] theorem sset_pc (r : Nat) (v : W64) (k : Core) : (sset r v k).ctl.pc = k.ctl.pc := by
  unfold sset; split <;> rfl

theorem sset_ctl (r : Nat) (v : W64) (k : Core) : sset r v k = { k with ctl := (sset r v k).ctl } := by
  unfold sset; split <;> rfl

/-! ### Issue -/

@[simp] theorem issue_core_same (reads : List Nat) (n : Nat) :
    (issue c reads n s).core c = { s.core c with ctl := { (s.core c).ctl with cyc := issueAt (s.core c) reads + n } } := by
  simp [issue]

theorem issue_core_other (d : CoreId) (reads : List Nat) (n : Nat) (h : d ≠ c) : (issue c reads n s).core d = s.core d := by
  simp [issue, setCore_core_other _ _ _ _ h]

@[simp] theorem issue_mem (reads : List Nat) (n : Nat) : (issue c reads n s).mem = s.mem := by simp [issue]

theorem issue_ctlOnly (reads : List Nat) (n : Nat) : CtlOnly c s (issue c reads n s) := by
  refine ⟨?_, fun d h => issue_core_other s c d reads n h, by simp, ?_⟩
  · rfl
  · have h := coreP_lt c 0 (by decide)
    unfold issue
    exact (bumpPair_wordsKept (setCore c _ s) _ _ _ ccOffs h (by decide) (by decide) (by decide)).trans
      (bumpPair_wordsKept _ _ _ _ ccOffs h (by decide) (by decide) (by decide))

theorem CtlOnly.trans {c : CoreId} {s t u : State} (h : CtlOnly c s t) (k : CtlOnly c t u) : CtlOnly c s u := by
  obtain ⟨h1, h2, h3, h4⟩ := h
  obtain ⟨k1, k2, k3, k4⟩ := k
  refine ⟨?_, fun d hd => (k2 d hd).trans (h2 d hd), ?_, h4.trans k4⟩
  · rw [k1, h1]
  · rw [k3, h3]

/-- A change of core c's control state alone. -/
theorem modCore_ctlOnly (f : Core → Core) (h : ∀ k, f k = { k with ctl := (f k).ctl }) : CtlOnly c s (modCore c f s) := by
  refine ⟨rfl, fun d hd => modCore_core_other s c d f hd, ?_, fun _ _ _ _ _ _ => rfl⟩
  simp only [modCore_core_same]; exact h _

@[simp] theorem whenIssue_of_issues (f : State → State) (h : Issues c s) : whenIssue c f s = f s := by
  simp [whenIssue, h.1, h.2]

/-! ### Results -/

theorem setRd_ctl (rd : Nat) (v : W64) (a b : Nat) (k : Core) : setRd rd v a b k = { k with ctl := (setRd rd v a b k).ctl } := by
  unfold setRd; rw [sset_ctl]

@[simp] theorem setRd_pc (rd : Nat) (v : W64) (a b : Nat) (k : Core) : (setRd rd v a b k).ctl.pc = k.ctl.pc := by
  unfold setRd; exact sset_pc rd v k

theorem sget_setRd (rd q : Nat) (v : W64) (a b : Nat) (k : Core) : sget (setRd rd v a b k) q = sget (sset rd v k) q := rfl

@[simp] theorem sget_nextPc (q : Nat) (k : Core) : sget (nextPc k) q = sget k q := rfl

@[simp] theorem sget_setPc (n q : Nat) (k : Core) : sget (setPc n k) q = sget k q := rfl

@[simp] theorem sget_cyc (k : Core) (n q : Nat) : sget { k with ctl := { k.ctl with cyc := n } } q = sget k q := rfl

/-- An instruction that computes one result writes it, goes on, and changes nothing else. -/
theorem scalarOp_result (reads : List Nat) (cost lat : Nat) (rd : BitVec 6) (f : Core → W64) (h : Issues c s) :
    Result c rd (f (s.core c)) s (scalarOp c reads cost lat rd.toNat f s) := by
  unfold scalarOp
  rw [whenIssue_of_issues s c _ h]
  refine ⟨?_, ?_, ?_, ?_⟩
  · simp only [modCore_core_same, sget_nextPc, sget_setRd, sget_sset_same]
    have : rd.toNat = 0 ↔ rd = 0 := by rw [← BitVec.toNat_inj]; rfl
    simp [this]
  · intro r hr
    simp only [modCore_core_same, sget_nextPc, sget_setRd, sget_sset_other _ _ _ _ hr, issue_core_same, sget_cyc]
  · simp only [modCore_core_same, nextPc, setPc, setRd_pc, issue_core_same]
  · refine (issue_ctlOnly s c reads cost).trans (modCore_ctlOnly _ c _ (fun k => ?_))
    show nextPc _ = _
    unfold nextPc setPc; rw [setRd_ctl]

end Sys2Proof.Machine
end

