-- ==== Sys2Proof/Laws/Events.lean ====
section
/-! SUPPORT. What logging an event leaves in the registers of its page (R494 to R496). -/
namespace Sys2Proof.Machine

variable (s : State)

theorem forwardReport_rawWord (page flag : Nat) (cap : List Nat) (b : Bool) (b' p' o' : Nat) :
    rawWord (forwardReport page flag cap b s) b' p' o' = rawWord s b' p' o' := by
  rw [forwardReport_frame]; rfl

theorem eventVector_rawWord (p : Fin 2) (b' p' o' : Nat) : rawWord (eventVector p s) b' p' o' = rawWord s b' p' o' := by
  rw [eventVector_frame]; rfl

/-- The state whose registers an event leaves: flag, counter and capture. -/
def loggedRegs (page flag : Nat) (cap : List Nat) (s : State) : State :=
  let s' := setWord 0 page 0x010 (putBits (rawWord s 0 page 0x010) flag flag 1) s
  captureEvent page flag cap (setWord 0 page (0x020 + 4 * flag) (min (rawWord s' 0 page (0x020 + 4 * flag) + 1) (2 ^ 32 - 1)) s')

theorem logEvent_rawWord (page flag : Nat) (cap : List Nat) (b p o : Nat) :
    rawWord (logEvent page flag cap s) b p o = rawWord (loggedRegs page flag cap s) b p o := by
  unfold logEvent loggedRegs
  dsimp only
  split
  · rw [forwardReport_rawWord]
  · rw [eventVector_rawWord, eventVector_rawWord, forwardReport_rawWord]

/-- The offsets of the header that an event of a flag may change (R494 to R496). -/
def evOffs (flag : Nat) : List Nat := [0x00C, 0x010, 0x020 + 4 * flag, 0x040, 0x044, 0x048, 0x04C]

theorem captureEvent_wordsKept (page flag : Nat) (cap : List Nat) (hp : page < 16384) :
    WordsKept page [0x00C, 0x040, 0x044, 0x048, 0x04C] s (captureEvent page flag cap s) := by
  unfold captureEvent
  split
  · exact WordsKept.refl s _ _
  · exact (((((setWord_wordsKept s page 0x00C _ hp (by decide)).mono (by simp)).trans
      ((setWord_wordsKept _ page 0x04C _ hp (by decide)).mono (by simp))).trans
      ((setWord_wordsKept _ page 0x048 _ hp (by decide)).mono (by simp))).trans
      ((setWord_wordsKept _ page 0x044 _ hp (by decide)).mono (by simp))).trans
      ((setWord_wordsKept _ page 0x040 _ hp (by decide)).mono (by simp))

/-- An event changes no register word but its flag, its counter and the first-error capture. -/
theorem logEvent_wordsKept (page flag : Nat) (cap : List Nat) (hp : page < 16384) (hf : flag < 8) :
    WordsKept page (evOffs flag) s (logEvent page flag cap s) := by
  intro b p o h1 h2 h3
  rw [logEvent_rawWord]
  have k1 : WordsKept page (evOffs flag) s (setWord 0 page 0x010 (putBits (rawWord s 0 page 0x010) flag flag 1) s) :=
    (setWord_wordsKept s page 0x010 _ hp (by decide)).mono (by simp [evOffs])
  refine (k1.trans (WordsKept.trans (t := setWord 0 page (0x020 + 4 * flag) _ _) ?_
    ((captureEvent_wordsKept _ page flag cap hp).mono (by simp [evOffs])))) b p o h1 h2 h3
  refine (setWord_wordsKept _ page (0x020 + 4 * flag) _ hp (by omega)).mono (fun x hx => ?_)
  have e : (0x020 + 4 * flag) / 4 * 4 = 0x020 + 4 * flag := by omega
  rw [e] at hx; simp [evOffs] at hx ⊢; omega

theorem putBits_bit (w k : Nat) : putBits w k k 1 = 2 ^ k * (w / 2 ^ k - w / 2 ^ k % 2 + 1) + w % 2 ^ k := by
  have h1 := Nat.div_add_mod w (2 ^ k)
  have h2 : w / 2 ^ k % 2 ≤ w / 2 ^ k := Nat.mod_le _ _
  simp only [putBits, bitsOf, Nat.sub_self, Nat.zero_add, Nat.pow_one]
  generalize w / 2 ^ k = q at *
  generalize w % 2 ^ k = r at *
  generalize q % 2 = b at *
  subst h1
  obtain ⟨d, rfl⟩ := Nat.exists_eq_add_of_le h2
  rw [Nat.add_sub_cancel_left, Nat.mul_add, Nat.mul_add, Nat.mul_comm b]
  omega

/-- A bit that is set reads as set. -/
theorem bitOf_putBits (w k : Nat) (hk : k < 32) : bitOf (putBits w k k 1 % 2 ^ 32) k = true := by
  have hp : 0 < 2 ^ k := Nat.two_pow_pos k
  have e : 2 ^ 32 = 2 ^ k * 2 ^ (32 - k) := by rw [← Nat.pow_add]; congr 1; omega
  have hd : 2 ∣ 2 ^ (32 - k) := Nat.pow_dvd_pow_iff_le_right'.2 (by omega : 1 ≤ 32 - k)
  rw [bitOf, putBits_bit, e, Nat.mod_mul_right_div_self, Nat.mul_add_div hp, Nat.div_eq_of_lt (Nat.mod_lt _ hp), Nat.add_zero,
    Nat.mod_mod_of_dvd _ hd, beq_iff_eq]
  omega

/-- The flag of an event is set. -/
theorem logEvent_flag (page flag : Nat) (cap : List Nat) (hp : page < 16384) (hf : flag < 8) :
    bitOf (rawWord (logEvent page flag cap s) 0 page 0x010) flag = true := by
  rw [logEvent_rawWord]
  unfold loggedRegs
  dsimp only
  rw [captureEvent_wordsKept _ page flag cap hp 0 page 0x010 hp (by decide) (Or.inr (by decide)),
    rawWord_setWord_other _ 0 page _ _ 0 page 0x010 (by decide) hp (by omega) hp (by decide) (Or.inr (Or.inr (by omega))),
    rawWord_setWord_same]
  exact bitOf_putBits _ _ (by omega)

/-- The counter of an event rises by one and saturates. -/
theorem logEvent_count (page flag : Nat) (cap : List Nat) (hp : page < 16384) (hf : flag < 8) :
    rawWord (logEvent page flag cap s) 0 page (0x020 + 4 * flag) =
      min (rawWord s 0 page (0x020 + 4 * flag) + 1) (2 ^ 32 - 1) := by
  rw [logEvent_rawWord]
  unfold loggedRegs
  dsimp only
  rw [captureEvent_wordsKept _ page flag cap hp 0 page (0x020 + 4 * flag) hp (by omega) (Or.inr (by simp; omega)),
    rawWord_setWord_same,
    rawWord_setWord_other _ 0 page _ _ 0 page (0x020 + 4 * flag) (by decide) hp (by decide) hp (by omega)
      (Or.inr (Or.inr (by omega)))]
  exact Nat.mod_eq_of_lt (by omega)

/-- Logging an event is what Logged says. -/
theorem logEvent_logged (page flag : Nat) (cap : List Nat) (hp : page < 16384) (hf : flag < 8) :
    Logged page flag s (logEvent page flag cap s) :=
  ⟨logEvent_flag s page flag cap hp hf, logEvent_count s page flag cap hp hf⟩

/-- A skipped instruction. -/
theorem skipInstr_skipped (c : CoreId) (reads : List Nat) (cause word : Nat) : Skipped c s (skipInstr c reads cause word s) := by
  have hp := coreP_lt c 0 (by decide)
  have h1 := issue_ctlOnly s c reads 1
  unfold skipInstr
  dsimp only
  refine ⟨by simp [nextPc, setPc], fun r => by simp, ?_, fun d hd => ?_, ?_, ?_⟩
  · obtain ⟨a, b⟩ := logEvent_logged (issue c reads 1 s) (coreP c 0) 0
      [(s.core c).ctl.pc + (s.core c).ctl.page * 2 ^ 14 + cause * 2 ^ 16, heldWord s c word] hp (by decide)
    refine ⟨by simpa using a, ?_⟩
    rw [modCore_rawWord, b, h1.2.2.2 0 _ _ hp (by decide) (Or.inr (by decide))]
  · rw [modCore_core_other _ _ _ _ hd, logEvent_core, issue_core_other _ _ _ _ _ hd]
  · simp [nextPc, setPc]
  · rw [logEvent_frame]; rfl

end Sys2Proof.Machine
end

