-- ==== Sys2Proof/Laws/Engines.lean ====
section
/-! SUPPORT. What the operations that engines share do to a core: taking a command, beginning and completing it. -/
namespace Sys2Proof.Machine

theorem CoreOnly.refl (c : CoreId) (s : State) : CoreOnly c s s := ⟨rfl, fun _ _ => rfl, fun _ _ _ _ _ _ => rfl⟩

theorem CoreOnly.trans {c : CoreId} {s t u : State} (h : CoreOnly c s t) (k : CoreOnly c t u) : CoreOnly c s u := by
  obtain ⟨h1, h2, h3⟩ := h
  obtain ⟨k1, k2, k3⟩ := k
  refine ⟨by rw [k1, h1], fun d hd => (k2 d hd).trans (h2 d hd), fun b p o hp ho hn => (k3 b p o hp ho hn).trans (h3 b p o hp ho hn)⟩

theorem modCore_coreOnly (c : CoreId) (f : Core → Core) (s : State) : CoreOnly c s (modCore c f s) :=
  ⟨rfl, fun d hd => modCore_core_other s c d f hd, fun _ _ _ _ _ _ => rfl⟩

theorem setCore_coreOnly (c : CoreId) (k : Core) (s : State) : CoreOnly c s (setCore c k s) :=
  ⟨rfl, fun d hd => setCore_core_other s c d k hd, fun _ _ _ _ _ _ => rfl⟩

theorem bumpPair_coreOnly (c : CoreId) (k o n : Nat) (s : State) (hk : k < 16) (ho : o + 4 < 4096) :
    CoreOnly c s (bumpPair (coreP c k) o n s) := by
  refine ⟨rfl, fun _ _ => rfl, fun b p o' hp ho' hn => ?_⟩
  exact bumpPair_wordsKept s (coreP c k) o n (List.range 4096) (coreP_lt c k (by omega)) ho (by simp; omega) (by simp; omega) b p o'
    hp ho' (Or.inl (hn k hk))

theorem setWord_coreOnly (c : CoreId) (k o v : Nat) (s : State) (hk : k < 16) (ho : o < 4096) :
    CoreOnly c s (setWord 0 (coreP c k) o v s) := by
  refine ⟨rfl, fun _ _ => rfl, fun b p o' hp ho' hn => ?_⟩
  exact setWord_wordsKept s (coreP c k) o v (coreP_lt c k (by omega)) ho b p o' hp ho' (Or.inl (hn k hk))

/-- A pair counter reads what it was raised to. -/
theorem rawPair_bumpPair_same (page o n : Nat) (s : State) (hp : page < 16384) (ho : o + 4 < 4096) (ha : o % 4 = 0) :
    rawPair (bumpPair page o n s) 0 page o = min (rawPair s 0 page o + n) (2 ^ 64 - 1) := by
  unfold bumpPair setPair
  generalize hm : min (rawPair s 0 page o + n) (2 ^ 64 - 1) = m
  have hlt : m < 2 ^ 64 := by omega
  unfold rawPair
  rw [rawWord_setWord_other _ 0 page (o + 4) _ 0 page o (by decide) hp (by omega) hp (by omega) (Or.inr (Or.inr (by omega))),
    rawWord_setWord_same, rawWord_setWord_same]
  omega

theorem rawPair_bumpPair_other (page o n page' o' : Nat) (s : State) (hp : page < 16384) (hp' : page' < 16384) (ho : o + 4 < 4096)
    (ho' : o' + 4 < 4096) (ha : o % 4 = 0) (ha' : o' % 4 = 0) (hn : page' ≠ page ∨ o' + 4 < o ∨ o + 4 < o') :
    rawPair (bumpPair page o n s) 0 page' o' = rawPair s 0 page' o' := by
  have k := bumpPair_wordsKept s page o n [o, o + 4] hp ho (by simp; omega) (by simp; omega)
  unfold rawPair
  rw [k 0 page' o' hp' (by omega) (by rcases hn with h | h; exact Or.inl h; right; simp; omega),
    k 0 page' (o' + 4) hp' (by omega) (by rcases hn with h | h; exact Or.inl h; right; simp; omega)]

variable (c : CoreId) (q : Queue) (e : QEntry) (s : State)

theorem takeWhen_of_stands (cond : QEntry → Bool) (f : QEntry → State → State) (h : Stands c q e s) (hc : cond e = true) :
    takeWhen c q cond f s = f e (popHead c q s) := by
  unfold takeWhen
  dsimp only
  rw [h.1]
  simp [h.2.1, h.2.2, hc]

theorem queueOf_popQueue (k : Core) : queueOf (popQueue q k) q = (queueOf k q).tail := by cases q <;> rfl

theorem popHead_core : (popHead c q s).core c = popQueue q (s.core c) := by simp [popHead]

theorem popHead_popped : Popped c q s (popHead c q s) := by
  refine ⟨by rw [popHead_core, queueOf_popQueue], ?_⟩
  unfold popHead
  rw [rawPair_bumpPair_same _ _ _ _ (coreP_lt c 2 (by decide)) (by cases q <;> decide) (by cases q <;> decide)]
  rfl

theorem popHead_coreOnly : CoreOnly c s (popHead c q s) :=
  (modCore_coreOnly c _ s).trans (bumpPair_coreOnly c 2 _ _ _ (by decide) (by cases q <;> decide))

theorem popHead_frame : popHead c q s = { s with cores := (popHead c q s).cores, regs := (popHead c q s).regs } := rfl

theorem recordHeld_coreOnly (op : HeldOp) : CoreOnly c s (recordHeld c op s) := modCore_coreOnly c _ s

theorem completeFlight_coreOnly (fl : Flight) (n : Nat) : CoreOnly c s (completeFlight c fl n s) := by
  unfold completeFlight
  dsimp only
  split
  · exact modCore_coreOnly c _ s
  · exact (modCore_coreOnly c _ s).trans (recordHeld_coreOnly c _ _)

/-- A completion touches the queues' flights and the task's held operations and digest, no queue and no register. -/
theorem completeFlight_queues (fl : Flight) (n : Nat) :
    ((completeFlight c fl n s).core c).queues = { (s.core c).queues with flights := (s.core c).queues.flights.erase fl } ∧
      (completeFlight c fl n s).regs = s.regs := by
  unfold completeFlight
  dsimp only
  split
  · simp
  · constructor
    · simp [recordHeld, modTask]
    · simp [recordHeld]

theorem completeFlight_completed (fl : Flight) (n : Nat) : Completed c fl n s (completeFlight c fl n s) := by
  unfold completeFlight
  dsimp only
  cases hs : fl.sig with
  | none => exact ⟨by simp, fun k hk _ => by simp [hk, hs]⟩
  | some o => exact ⟨by simp [recordHeld, modTask], fun k hk hr => by simp [recordHeld, modTask, hk, recordHeldTask, hr, hs]⟩

theorem completeNow_popped (s u : State) (h : Popped c q s u) : Popped c q s (completeNow c q e u) := by
  have hq := completeFlight_queues c u (flightOf q e) 1
  refine ⟨?_, ?_⟩
  · rw [← h.1]
    unfold completeNow
    cases q <;> simp [queueOf, hq.1]
  · rw [← h.2]
    unfold completeNow rawPair rawWord
    rw [hq.2]

theorem Completed.of_pop (fl : Flight) (n : Nat) (s t : State) (h : Completed c fl n (popHead c q s) t) : Completed c fl n s t := by
  obtain ⟨h1, h2⟩ := h
  rw [popHead_core] at h1 h2
  refine ⟨by rw [h1]; cases q <;> rfl, fun k hk hr => h2 k (by rw [← hk]; cases q <;> rfl) hr⟩

end Sys2Proof.Machine
end

