-- ==== Sys2Proof/Tests/Slice0.lean ====
section
/-! SUPPORT. Small tests: ill-formed terms are refused; the hypotheses of every
statement are met somewhere, clause by clause; and some results that the spec gives in numbers. A state is the reset state with
the few fields that a clause names. -/
namespace Sys2Proof.Tests

set_option Elab.async false
open Sys2Proof.Machine

/-! ### States -/

/-- The module ACTIVE with Meridian in RUN. -/
def live : State := { State.reset with power := { Power.reset with
  modState := 3, meridian := 2, modEn := true, vin := 48000, fcore := 1000, fmax := 1000 } }

/-- A task that runs its original. -/
def task : Task :=
  { slot := 0, ctx := 0, step := 0, key := 0, seed := 0, page := 0, entry := 0, guarded := false, halt := .no, pushes := 0,
    held := [], parts := [], sampled := false, matrix := true, unsample := false, lineFail := false, grpLeft := false, run := .original,
    digest := ⟨0, [], [], 0, []⟩, first := none, second := none, firstHeld := [], transfers := 0, runEnded := false }

/-- Core 0 changed. -/
def core0 (f : Core → Core) (s : State) : State := setCore 0 (f (s.core 0)) s

/-- Core 0 runs a task. -/
def withTask (k : Task) (f : Core → Core := id) : State :=
  core0 (fun x => f { x with sched := { x.sched with task := some k, slots := [(0, ⟨2, 1⟩)] } }) live

/-- Core 0 stands at an instruction with scalar registers as given. -/
def at_ (pc : Nat) (sregs : Map W64) : State :=
  withTask task (fun x => { x with ctl := { x.ctl with running := true, pc := pc, sregs := sregs } })

/-! ### Hypotheses: the control core -/

theorem witness_ScalarResults : Issues 0 (at_ 0 []) ∧ Issues 3 (setCore 3 ((at_ 16383 []).core 0) live) := by
  unfold Issues; decide +kernel

/-- A divisor of zero; the most negative dividend by −1. -/
theorem witness_DivisionCorners :
    (Issues 0 (at_ 0 [(1, 7)]) ∧ sget ((at_ 0 [(1, 7)]).core 0) 2 = 0) ∧
    (let s := at_ 0 [(1, 0x8000000000000000), (2, 0xFFFFFFFFFFFFFFFF)]
     Issues 0 s ∧ (sget (s.core 0) 1).toInt = -2 ^ 63 ∧ (sget (s.core 0) 2).toInt = -1) := by
  unfold Issues; decide +kernel

/-- The last access of data memory of each size. -/
theorem witness_DataMemoryEffects : let s := at_ 0 [(1, 65528)]
    Issues 0 s ∧ ∀ x ∈ [(1, 7), (2, 6), (4, 4), (8, 0)],
      let a := (sget (s.core 0) 1 + (BitVec.ofNat 12 x.2).signExtend 64).toNat
      a % x.1 = 0 ∧ a + x.1 = 65536 ∧ poisoned s (dmemBase 0 + a) x.1 = false := by
  unfold Issues; decide +kernel

/-- Branches to either end of a page; a wait; a page's end. -/
theorem witness_ControlFlow :
    (Issues 0 (at_ 1 []) ∧ (((at_ 1 []).core 0).ctl.pc : Int) + (0xFFF : BitVec 12).toInt = 0) ∧
    (Issues 0 (at_ 16382 []) ∧ (((at_ 16382 []).core 0).ctl.pc : Int) + (1 : BitVec 18).toInt = 16383) ∧
    ((at_ 0 []).core 0).guarded = false ∧
    ((core0 (fun x => { x with ctl := { x.ctl with waitcy := some 0 } }) (at_ 0 [])).core 0).ctl.waitcy = some 0 ∧
    ((at_ 16384 []).core 0).ctl.running = true ∧ 16384 ≤ ((at_ 16384 []).core 0).ctl.pc ∧
    ((at_ 16384 []).core 0).live = true := by
  unfold Issues; decide +kernel

/-- One unaligned and one overlong access, targets just outside the page, and addresses just outside the register window. -/
theorem witness_SkippedInstructions :
    Issues 0 (at_ 0 [(1, 65535)]) ∧ reservedWord 0xFF000000 = true ∧
    (sget ((at_ 0 [(1, 65536)]).core 0) 1).toNat % 16 = 0 ∧ 65536 < (sget ((at_ 0 [(1, 65536)]).core 0) 1).toNat + 16 ∧
    (∀ n ∈ [2, 4, 8], (sget ((at_ 0 [(1, 65535)]).core 0) 1).toNat % n ≠ 0) ∧
    65536 < (sget ((at_ 0 [(1, 65536)]).core 0) 1).toNat + 1 ∧
    (((at_ 0 []).core 0).ctl.pc : Int) + (0xFFF : BitVec 12).toInt < 0 ∧
    16384 ≤ (((at_ 16383 []).core 0).ctl.pc : Int) + (1 : BitVec 18).toInt ∧
    (sget ((at_ 0 [(1, 0xF0001000000)]).core 0) 1).toNat = 0xF0001000000 ∧
    Issues 0 (withTask { task with guarded := true } (fun x => { x with ctl := { x.ctl with running := true } })) ∧
    ((withTask { task with guarded := true }).core 0).guarded = true := by
  unfold Issues; decide +kernel

/-- An entry of a queue. -/
def entry (w : BitVec 128) : QEntry := ⟨w, 0, 0, [], []⟩

/-- Core 0 runs a task, and a command heads its matrix queue. -/
def matrixAt (w : BitVec 128) (f : Core → Core := id) : State :=
  withTask task (fun x => f { x with queues := { x.queues with matrix := [entry w] } })

/-- A queue with room and a full one; the last place of a command of data memory; a held operation; a returning one. -/
theorem witness_PushAndSopEffects : let s := at_ 0 [(1, 65520)]
    Issues 0 s ∧ (queueOf (s.core 0) .matrix).length < capacity .matrix ∧ (s.core 0).guarded = false ∧
    (let t := core0 (fun x => { x with queues := { x.queues with reduce := List.replicate (capacity .reduce) (entry 0) } }) s
     capacity .reduce ≤ (queueOf (t.core 0) .reduce).length ∧ (t.core 0).guarded = false ∧ Issues 0 t) ∧
    (sget (s.core 0) 1).toNat % 16 = 0 ∧ (sget (s.core 0) 1).toNat + 16 = 65536 ∧
    poisoned s (dmemBase 0 + 65520) 16 = false ∧ (s.core 0).sched.task = some task ∧ task.run ≠ .check ∧
    ((core0 (fun x => { x with ctl := { x.ctl with sopWait := some (5, 9) } }) s).core 0).ctl.sopWait = some (5, 9) := by
  unfold Issues; decide +kernel

/-- The last registers of the window for a word and a pair. -/
theorem witness_RegisterInstructions :
    (∀ x ∈ [(4, 0xF0000FFFFFC), (8, 0xF0000FFFFF8)], let s := at_ 0 [(1, BitVec.ofNat 64 x.2)]
      let a := (sget (s.core 0) 1 + (0 : BitVec 12).signExtend 64).toNat
      Issues 0 s ∧ 0xF0000000000 ≤ a ∧ a < 0xF0001000000 ∧ a % x.1 = 0) ∧
    ((core0 (fun x => { x with ctl := { x.ctl with regWait := some ⟨3, 0xF0000000014, false⟩ } }) (at_ 0 [])).core 0).ctl.regWait
      = some ⟨3, 0xF0000000014, false⟩ := by
  unfold Issues; decide +kernel

/-! ### Hypotheses: queues, the cube array and the vector engine -/

/-- A command from its OP and its fields, each a value and its lowest bit. -/
def cmd (op : Nat) (fields : List (Nat × Nat)) : BitVec 128 :=
  BitVec.ofNat 128 (fields.foldl (fun a x => a + x.1 * 2 ^ x.2) op)

/-- Core 0 runs a task, and a command heads one of its queues. -/
def queueAt (q : Queue) (w : BitVec 128) (f : Core → Core := id) : State :=
  withTask task (fun x => f { x with queues := match q with
    | .matrix => { x.queues with matrix := [entry w] }
    | .vector => { x.queues with vector := [entry w] }
    | .dma => { x.queues with dma := [entry w] }
    | .reduce => { x.queues with reduce := [entry w] } })

/-- A tile register of core 0 committed. -/
def withTreg (ws : List Nat) (s : State) (n : Nat := 0) : State :=
  ws.zipIdx.foldl (fun t x => setWord 0 (trPage 0 n) (trOff n + 4 * x.2) x.1 t) s

/-- A region of 32 × 32 in blocks of 8-bit mantissas, of 8 × 256 likewise, and of 8 × 256 fp32 and int16 elements. -/
def blocks32 : List Nat := [2 * 2 ^ 23, 0x10000, 32, 32, 32, 32, 1, 1]
def blocks256 : List Nat := [2 * 2 ^ 23, 0x10000, 8, 256, 256, 32, 8, 1]
def floats256 : List Nat := [5 * 2 ^ 23, 0, 8, 256, 1024, 0, 0, 0]
def shorts256 : List Nat := [8 * 2 ^ 23, 0, 8, 256, 512, 0, 0, 0]

theorem witness_NopsAndReservedOps : ∀ q ∈ [Queue.matrix, .vector, .dma, .reduce],
    Stands 0 q (entry (cmd 0 [])) (queueAt q (cmd 0 [])) ∧ cmdOp (cmd 0 []) = 0 ∧
    Stands 0 q (entry (cmd 6 [(3, 26)])) (queueAt q (cmd 6 [(3, 26)])) ∧ 5 < cmdOp (cmd 6 [(3, 26)]) ∧
    vecOpOk (vcmdOf (cmd 6 [(3, 26)])) = false ∧ vecReady (queueAt q (cmd 6 [(3, 26)])) 0 (entry (cmd 6 [(3, 26)])) = true := by
  unfold Stands; decide +kernel

/-- A flight of core 0. -/
def flight0 : Flight := ⟨0, 0, 0, none⟩

/-- A load of 8 × 32 elements that has written nothing. -/
def loadJob : LoadJob := ⟨flight0, 0, 1, 0, false, 8, 32, 0, 0, blocks32, none, 0⟩

/-- A load of the least size, one of depth 0, which fails, and the first cube row of a load that writes one. -/
theorem witness_LoadEffects :
    (let w := cmd 1 [(8, 41), (32, 50)]
     let s := withTreg blocks32 (queueAt .matrix w)
     let r := treg s 0 0
     Stands 0 .matrix (entry w) s ∧ cmdOp w = 1 ∧ loaderFree (s.core 0).array = true ∧ r.blocks = true ∧
     sizeOk 8 256 (cmdBits w 49 41) = true ∧ sizeOk 32 (bankDepth (blockBits r.fmt)) (cmdBits w 60 50) = true ∧
     sourceOk r (cmdBits w 83 64) (cmdBits w 115 96) = true) ∧
    sizeOk 32 1024 (cmdBits (cmd 1 []) 60 50) = false ∧
    (let s := withTask task (fun x => { x with array := { x.array with loads := [loadJob] } })
     let q := tregOf loadJob.treg
     let spots := insideSpots q (loadSpots loadJob 0)
     (s.core 0).array.loads = loadJob :: [] ∧ loadJob.rows = (0 : Fin 32).val ∧ (loadJob.rows + 1) * 8 = loadJob.m ∧
     ({ loadJob with m := 16 }.rows + 1) * 8 ≠ ({ loadJob with m := 16 } : LoadJob).m ∧
     loadJob.d ≤ 1024 ∧ loadJob.bank < 2 ∧ rowHeld (s.core 0).array loadJob loadJob.rows = false ∧
     linesOk (s.core 0) loadJob.tileReg loadJob.tag (spots.map (fun x => q.lineOf x.2.2.1 x.2.2.2)) = true ∧
     firstPoison s (spots.flatMap (fun x => elemBytes 0 q x.2.2.1 x.2.2.2)) = none) := by
  unfold Stands; decide +kernel

/-- A stream of 8 columns of depth 32, and its words. -/
def streamJob : StreamJob := ⟨flight0, 0, 0, none, 0, blocks32, 8, 32, 8, 8, 0, 0, 1, false, 8, 2 ^ 32 - 1, 2 ^ 32 - 1, none, 32, 0, 0,
  [], [], 0⟩
def word0 : SWord := ⟨some streamJob, 1, false, [], [], [], true, none, 0, [], []⟩

/-- Core 0 with an open group 0. -/
def openGroup (x : Core) : Core := { x with groups := x.groups.set 0 { Group.reset with state := 1 } }

/-- Load 3 stands in every row of bank 0. -/
def loadedBank (x : Core) : Core :=
  { x with array := { x.array with bank0 := { x.array.bank0 with issued := 3, rowSeq := [(0, 3), (31, 3)] } } }

/-- Core 0 runs a task with words in its array. -/
def wordsAt (l : List SWord) : State := withTask task (fun x => { x with array := { x.array with words := l } })

/-- A masked STREAM, its mask register committed and its mask clean; a first word at a row of its panel and past it. -/
theorem witness_StreamEffects_masked :
    (let w := cmd 2 [(8, 53), (32, 84), (3, 48), (1, 40)]
     let s := withTreg floats256 (withTreg blocks32 (queueAt .matrix w openGroup)) 1
     let mr := treg s 0 1
     cmdBits w 49 48 = 3 ∧ cmdBits w 47 40 = 1 ∧ mr.covers 132 = true ∧
     linesOk (s.core 0) 1 (mfind (entry w).rcap 1) (maskLines mr 3) = true ∧
     poisoned s (spaceBase 0 mr.space + 64 * mr.base) 132 = false) ∧
    (∀ n ∈ [0, 1, 31], bankRowOk ((withTask task loadedBank).core 0).array { streamJob with flip := some 3 } n = true) ∧
    bankRowOk (live.core 0).array streamJob 0 = false ∧ streamJob.n ≤ 256 ∧ streamJob.group < 4 ∧
    ((wordsAt [{ word0 with row := 32 }]).core 0).array.words.find? (fun x => decide (x.row = 32))
      = some { word0 with row := 32 } := by
  decide +kernel

theorem witness_StreamEffects :
    (let w := cmd 2 [(8, 53), (32, 84)]
     let s := withTreg blocks32 (queueAt .matrix w openGroup)
     Stands 0 .matrix (entry w) s ∧ cmdOp w = 2 ∧ streamFree (s.core 0).array = true ∧ cmdBits w 49 48 = 0 ∧
     (treg s 0 0).blocks = true ∧ sizeOk 8 256 (cmdBits w 61 53) = true ∧ sizeOk 32 1024 (cmdBits w 94 84) = true ∧
     sourceOk (treg s 0 0) (cmdBits w 83 64) (cmdBits w 115 96) = true ∧ (bankOf (s.core 0).array 0).issued = 0 ∧
     (groupOf (s.core 0) 0).state = 1 ∧ (groupOf (s.core 0) 0).limited = false ∧
     (groupOf (s.core 0) 0).planned + 32 ≤ stepLimit (groupOf (s.core 0) 0).mode) ∧
    (let s := withTask task (fun x => { x with array := { x.array with streams := [streamJob] } })
     (s.core 0).live = true ∧ (s.core 0).array.streams = streamJob :: [] ∧ streamJob.before = 0) ∧
    (∀ n ∈ [0, 31, 32], ((wordsAt [{ word0 with row := n }]).core 0).array.words.find? (fun x => decide (x.row = n))
      = some { word0 with row := n }) ∧ word0.job = some streamJob ∧ word0.pos ≠ 0 ∧ word0.tagOk = true ∧ word0.bad = none ∧
    ((wordsAt [{ word0 with job := none }]).core 0).array.words.find? (fun x => decide (x.row = 0))
      = some { word0 with job := none } ∧
    ((wordsAt [{ word0 with row := 33 }]).core 0).array.words.find? (fun x => decide (x.row = 33))
      = some { word0 with row := 33 } := by
  unfold Stands; decide +kernel

/-- A group in each of its states. -/
theorem witness_GroupEffects :
    (∀ x ∈ [(3, 2), (3, 3), (4, 0), (5, 0)],
      Stands 0 .matrix (entry (cmd x.1 [(x.2, 34)])) (matrixAt (cmd x.1 [(x.2, 34)]))) ∧
    cmdOp (cmd 3 []) = 3 ∧ cmdBits (cmd 3 [(3, 34)]) 35 34 = 3 ∧ cmdBits (cmd 3 [(2, 34)]) 37 37 = 0 ∧ cmdOp (cmd 4 []) = 4 ∧
    cmdOp (cmd 5 []) = 5 ∧ (groupOf ((matrixAt (cmd 3 [])).core 0) 0).state = 0 ∧
    ∀ n ∈ [1, 2, 3], (groupOf ((matrixAt (cmd n [])
      (fun x => { x with groups := x.groups.set 0 { Group.reset with state := n, markerOut := true } })).core 0) 0).state = n := by
  unfold Stands; decide +kernel

/-- Calibrated groups: of a slot that is OFF, and of one in force; an encoding of no mode. -/
theorem witness_GroupEffects_calibrated :
    (let w := cmd 3 [(1, 37), (7, 48)]
     Stands 0 .matrix (entry w) (matrixAt w) ∧ cmdBits w 37 37 = 1 ∧ calOff (matrixAt w) (cmdBits w 61 48) = true ∧
     gopenReady (matrixAt w) 0 (entry w) = true) ∧
    (let w := cmd 3 [(1, 37)]
     let s := calMod 0 (fun x => { x with cfg := { x.cfg with mode := 3 }, forStep := some 0 }) (matrixAt w)
     Stands 0 .matrix (entry w) s ∧ calOff s 0 = false ∧ calInForce s 0 (taskStep s 0) = true) ∧
    cmdBits (cmd 3 [(3, 34)]) 35 34 = 3 ∧ gopenReady (matrixAt (cmd 3 [(3, 34)])) 0 (entry (cmd 3 [(3, 34)])) = true := by
  unfold Stands; decide +kernel

/-- Every occasion of a schedule fault, in normal mode and in guarded replay. -/
theorem witness_ScheduleFaults :
    (∀ x ∈ [(3, 2), (3, 3), (5, 2)],
      let w := cmd x.1 [(0, 34)]
      let s := matrixAt w (fun y => { y with groups := y.groups.set 0 { Group.reset with state := x.2 } })
      Stands 0 .matrix (entry w) s ∧ gopenReady s 0 (entry w) = true ∧ cmdBits w 35 34 ≠ 3 ∧ (s.core 0).guarded = false ∧
      (groupOf (s.core 0) (cmdBits w 33 32)).state = x.2) ∧
    (∀ n ∈ [1, 2], let w := cmd 0x43 [(1, 56)]
      let s := queueAt .vector w (fun x => { x with groups := x.groups.set 0 { Group.reset with state := n } })
      VecTakes 0 0x43 (entry w) s ∧ vecReady s 0 (entry w) = true ∧ (groupOf (s.core 0) (vcmdOf w).g).state = n) ∧
    ((withTask { task with guarded := true }).core 0).guarded = true := by
  unfold VecTakes Stands; decide +kernel
theorem witness_ScheduleFaults_vld :
    let w := cmd 0x80 [(1, 56)]
    let e : QEntry := { entry w with rcap := [(0, 1)] }
    let s := withTreg floats256 (withTask task (fun x => { x with queues := { x.queues with vector := [e] } }))
    VecTakes 0 0x80 e s ∧ vldTagsOk s 0 e (vcmdOf w) = false := by
  unfold VecTakes Stands; decide +kernel
theorem witness_ScheduleFaults_array :
    (let j : LoadJob := { loadJob with tag := some 1 }
     let s := withTask task (fun x => { x with array := { x.array with loads := [j] } })
     (s.core 0).live = true ∧ (s.core 0).guarded = false ∧ (s.core 0).array.loads = j :: [] ∧ j.rows ≤ (31 : Fin 32).val ∧
     rowHeld (s.core 0).array j j.rows = false ∧
     linesOk (s.core 0) j.tileReg j.tag ((insideSpots (tregOf j.treg) (loadSpots j j.rows)).map
       (fun y => (tregOf j.treg).lineOf y.2.2.1 y.2.2.2)) = false) ∧
    (let w := { word0 with tagOk := false }
     ((wordsAt [w]).core 0).array.words.find? (fun y => decide (y.row = 0)) = some w ∧ w.job = some streamJob ∧ w.tagOk = false ∧
     ((wordsAt [w]).core 0).live = true ∧ ((wordsAt [w]).core 0).guarded = false) ∧
    (let w := { word0 with pos := 0 }
     w.tagOk = true ∧ w.bad = none ∧ w.pos = 0 ∧ mget 0 (bankOf ((wordsAt [w]).core 0).array streamJob.bank).rowSeq 0 = 0 ∧
     mget 0 (bankOf ((withTask task loadedBank).core 0).array 0).rowSeq 0 ≠ 4) := by
  decide +kernel

/-- Every elementwise operation, on one register and on 32. -/
theorem witness_VectorResults : ∀ c ∈ [1, 32],
    (∀ op ∈ [0x01, 0x02, 0x03, 0x04, 0x05, 0x06, 0x07, 0x08, 0x09, 0x0A, 0x0B, 0x0C, 0x0D, 0x0E, 0x0F, 0x10, 0x11],
      VecTakes 0 op (entry (cmd op [(c, 56), (2, 26)])) (queueAt .vector (cmd op [(c, 56), (2, 26)]))) ∧
    ∀ op ∈ [0x20, 0x21, 0x22, 0x23, 0x24, 0x25, 0x26, 0x27, 0x28, 0x29, 0x2A, 0x2B],
      VecTakes 0 op (entry (cmd op [(c, 56), (1, 26), (5, 64)])) (queueAt .vector (cmd op [(c, 56), (1, 26), (5, 64)])) := by
  unfold VecTakes Stands; decide +kernel

/-- Rows of 8, the least length, and one of 2,048. -/
theorem witness_RowResults : ∀ rl ∈ [3, 11], ∀ op ∈ [0x50, 0x51, 0x52, 0x53, 0x60, 0x61, 0x62, 0x63, 0x64],
    VecTakes 0 op (entry (cmd op [(1, 56), (rl, 68), (8, 72), (0x3F800000, 96)]))
      (queueAt .vector (cmd op [(1, 56), (rl, 68), (8, 72), (0x3F800000, 96)])) := by
  unfold VecTakes Stands; decide +kernel

theorem witness_VectorMoves :
    (∀ x ∈ [(0x40, 2, []), (0x40, 0, []), (0x70, 1, []), (0x71, 0, []), (0x80, 0, floats256), (0x81, 0, floats256),
        (0x42, 0, shorts256)],
      VecTakes 0 x.1 (entry (cmd x.1 [(1, 56), (x.2.1, 26)])) (withTreg x.2.2 (queueAt .vector (cmd x.1 [(1, 56), (x.2.1, 26)])))) ∧
    (vcmdOf (cmd 0x42 [(1, 56)])).cal = false ∧
    (let s := calMod 5 (fun x => { x with cfg := { x.cfg with mode := 3 }, forStep := some 0 }) (withTask task)
     let f := vcmdOf (cmd 0x42 [(1, 56), (1, 93), (5, 96)])
     f.cal = true ∧ f.op = 0x42 ∧ calOff s f.slot = false ∧ calInForce s f.slot (taskStep s 0) = true ∧ s.bnd.step = taskStep s 0 ∧
     taskStep { s with bnd := { s.bnd with step := 1 } } 0 ≠ 1) ∧
    (let w := cmd 0x80 [(1, 56)]
     let s := withTreg floats256 (queueAt .vector w)
     vldTagsOk s 0 (entry w) (vcmdOf w) = true ∧ s.poison = []) ∧
    (let w := cmd 0x43 [(1, 56), (31, 118), (1, 123)]
     let s := queueAt .vector w (fun x => { x with groups := x.groups.set 0 { Group.reset with state := 3, mode := 1 } })
     VecTakes 0 0x43 (entry w) s ∧ (groupOf (s.core 0) (vcmdOf w).g).state = 3 ∧ (vcmdOf w).dest = 1) := by
  unfold VecTakes Stands; decide +kernel
theorem witness_VectorMoves_running (o : Option (Nat × Option Int × Bool)) :
    ((core0 (fun x => { x with vec := { x.vec with running := [(flight0, o)] } }) live).core 0).vec.running = (flight0, o) :: [] := rfl

/-- A command that brings every element of a region brings every block of it whole. -/
theorem blocksWhole_all (r : TReg) (n : Nat) (h : r.u * r.v ≤ n) : blocksWhole r 0 n = true := by
  simp only [blocksWhole, List.all_eq_true, decide_eq_true_eq]
  intro b _ i _
  generalize blockSpot r (b / 2 ^ 20) (b % 2 ^ 20) i = p
  by_cases hu : r.u ≤ p.1
  · exact .inl hu
  · by_cases hv : r.v ≤ p.2
    · exact .inr (.inl hv)
    · refine .inr (.inr ⟨Nat.zero_le _, ?_⟩)
      have a : (p.1 + 1) * r.v ≤ r.u * r.v := Nat.mul_le_mul_right _ (by omega)
      rw [Nat.add_mul] at a
      omega

/-- A quantisation of the whole of a block region. -/
theorem witness_VectorMoves_quant : let w := cmd 0x41 [(1, 56)]
   let s := withTreg blocks256 (queueAt .vector w)
   VecTakes 0 0x41 (entry w) s ∧ (vcmdOf w).cal = false := by
  refine ⟨⟨by unfold Stands; decide +kernel, by decide, ?_⟩, by decide⟩
  have h : vecRegionOk (vcmdOf (cmd 0x41 [(1, 56)])) (tregOf blocks256) = true := by
    have b : blocksWhole (tregOf blocks256) (firstElem (vcmdOf (cmd 0x41 [(1, 56)])) (tregOf blocks256)) (moved (vcmdOf (cmd 0x41 [(1, 56)]))) = true :=
      blocksWhole_all _ _ (by decide)
    unfold vecRegionOk
    rw [b]; decide
  have e : treg (withTreg blocks256 (queueAt .vector (cmd 0x41 [(1, 56)]))) 0 (vcmdOf (cmd 0x41 [(1, 56)])).tr = tregOf blocks256 := by decide +kernel
  simp only [vecCause, entry, e, h]
  decide +kernel

/-- The accumulators of a closed group into the whole of a block region. -/
theorem witness_VectorMoves_accrd : let w := cmd 0x43 [(1, 56), (2, 123)]
   let s := withTreg blocks256 (queueAt .vector w (fun x => { x with groups := x.groups.set 0 { Group.reset with state := 3 } }))
   VecTakes 0 0x43 (entry w) s ∧ (groupOf (s.core 0) (vcmdOf w).g).state = 3 ∧ (vcmdOf w).dest = 2 ∧ (vcmdOf w).cal = false ∧
   firstPoison s [(cellAddr 0 (cellKey (vcmdOf w).g (vcmdOf w).i0 0), 16 * 2048)] = none := by
  refine ⟨⟨by unfold Stands; decide +kernel, by decide, ?_⟩, by decide +kernel, by decide, by decide, by decide +kernel⟩
  have h : vecRegionOk (vcmdOf (cmd 0x43 [(1, 56), (2, 123)])) (tregOf blocks256) = true := by
    have b : blocksWhole (tregOf blocks256) (firstElem (vcmdOf (cmd 0x43 [(1, 56), (2, 123)])) (tregOf blocks256))
        (moved (vcmdOf (cmd 0x43 [(1, 56), (2, 123)]))) = true := blocksWhole_all _ _ (by decide)
    unfold vecRegionOk
    rw [b]; decide
  have e : treg (withTreg blocks256 (queueAt .vector (cmd 0x43 [(1, 56), (2, 123)])
      (fun x => { x with groups := x.groups.set 0 { Group.reset with state := 3 } }))) 0 (vcmdOf (cmd 0x43 [(1, 56), (2, 123)])).tr =
      tregOf blocks256 := by decide +kernel
  simp only [vecCause, entry, e, h]
  decide +kernel

/-- A command of each cause, and one of a slot that is OFF. -/
theorem witness_VectorSkips :
    (∀ x ∈ [(2, 0x01, [(33, 56)]), (2, 0x01, [(0, 56)]), (3, 0x43, [(2, 56), (31, 118), (1, 123)]), (3, 0x50, [(1, 56), (3, 68), (9, 72)]),
        (4, 0x60, [(1, 56), (3, 68), (8, 72), (0x80000000, 96)]), (4, 0x63, [(1, 56), (3, 68), (8, 72), (0xBF800000, 96)]),
        (5, 0x81, [(2, 56)]), (6, 0x42, [(1, 56)]), (6, 0x81, [(1, 56), (1, 26)]), (7, 0x43, [(1, 56), (3, 123)])],
      let w := cmd x.2.1 x.2.2
      let s := withTreg floats256 (queueAt .vector w)
      Stands 0 .vector (entry w) s ∧ cmdOp w = x.2.1 ∧ vecReady s 0 (entry w) = true ∧ vecCause s 0 (vcmdOf w) = x.1) ∧
    vecOpOk (vcmdOf (cmd 6 [(3, 26)])) = false ∧
    (let w := cmd 0x43 [(1, 56), (1, 123)]
     let s := queueAt .vector w
     VecTakes 0 0x43 (entry w) s ∧ (groupOf (s.core 0) (vcmdOf w).g).state = 0) ∧
    (let w := cmd 0x42 [(1, 56), (1, 93)]
     let s := withTreg shorts256 (queueAt .vector w)
     VecTakes 0 0x42 (entry w) s ∧ (vcmdOf w).cal = true ∧ calOff s (vcmdOf w).slot = true ∧ vecReady s 0 (entry w) = true) := by
  unfold VecTakes Stands; decide +kernel

/-! ### Hypotheses: DMA, reduction and calibration -/

/-- A descriptor that copies one row of four fp32 elements within tile memory of core 0. -/
def copyDesc : List Nat := [5 * 2 ^ 4 + 5 * 2 ^ 8 + 2 ^ 12, 4, 0, 0, 0, 0xE00, 0x1000, 0xE00, 0, 0, 0, 0, 0, 0, 0, 0]

/-- A transfer of it that has moved nothing, detached. -/
def xfer : Xfer :=
  { desc := copyDesc, owner := none, starter := some .vesper, ctx := 0, srcReg := [], dstReg := [], srcTag := none, dstTag := none,
    issued := 0, written := 0, rowsIn := [], unreported := 0, unmapped := false, unalloc := false, pageWr := false, number := 0,
    digestOnly := false, serial := 0, part := 0, back := none, landed := 0, tainted := false, wpart := 0, filling := true, counted := 0, step := 0,
    tagLim := 131072, hashed := 0, stop := 0 }

/-- Module-wide channel 0 with its sets as given. -/
def wideAt (active shadow : Option Xfer) (f : Chan → Chan := id) : State :=
  modChan (wideChan 0) (fun k => f { k with active := active, shadow := shadow }) live

/-- Its descriptor staged. -/
def stage (ws : List Nat) (s : State) : State := ws.zipIdx.foldl (fun t x => setWord 0 0x014 (0x500 + 4 * x.2) x.1 t) s

/-- A pushed descriptor, as bytes of data memory: an empty one is rejected. -/
def descBytes (ws : List Nat) : List Byte := ws.flatMap (fun w => bytesOfNat 4 w)

theorem witness_DescriptorEffects :
    (let w := cmd 1 []
     let s := { queueAt .dma w with mem := memPutAll [] (xferDescAt 0 (entry w)) (descBytes copyDesc) }
     Stands 0 .dma (entry w) s ∧ cmdOp w = 1 ∧ (s.chan (xferChan 0 (entry w))).shadow = none ∧
     firstPoison s [(xferDescAt 0 (entry w), 64)] = none ∧ readDesc s (xferDescAt 0 (entry w)) = copyDesc) ∧
    rejectCause live (descOf copyDesc) false (tregOf []) (tregOf []) = none ∧
    rejectCause live (descOf (List.replicate 16 0)) false (tregOf []) (tregOf []) = some 1 ∧
    (∀ q : CoreId, q.val < (1 : CoreId).val → xferWaits live 0 q = false) ∧
    ((wideAt none (some xfer)).chan (wideChan 0)).active = none ∧ ((wideAt none (some xfer)).chan (wideChan 0)).shadow = some xfer ∧
    xferRows xfer.desc ≠ 0 ∧ xferRows (copyDesc.set 1 0) = 0 ∧
    (let s := stage copyDesc live
     mayStart s .vesper 0 = true ∧ (s.chan (wideChan 0)).shadow = none ∧ allCores.any (xferWaits s (wideChan 0)) = false ∧
     reaches .vesper s = true ∧ stagedDesc s 0 = copyDesc ∧
     rejectCause s (descOf (stagedDesc s 0)) true (tregOf []) (tregOf []) = none) ∧
    rejectCause live (descOf (stagedDesc live 0)) true (tregOf []) (tregOf []) = some 1 ∧
    mayStart live (.func 0 1) 0 = false ∧ ((wideAt (some xfer) none).chan (wideChan 0)).active = some xfer ∧
    xfer.owner = none ∧ remoteDst live xfer = false ∧
    remoteDst live { xfer with desc := copyDesc.set 7 (0xE00 + 2 ^ 12), wpart := 16 } = true ∧ (live.chan (wideChan 0)).active = none ∧ (live.chan (wideChan 0)).shadow = none := by
  unfold Stands; decide +kernel

/-- A transfer before its row is issued, before it is written, and after; one paced, one suspended, one with progress due. -/
theorem witness_RowMovement :
    (let s := wideAt (some xfer) none
     issuer (s.chan (wideChan 0)) = some xfer ∧ (descOf xfer.desc).pace = false ∧ unreadyTiles s xfer 0 = [] ∧
     (s.chan (wideChan 0)).resumed = none ∧ waitersBefore s (.chan (wideChan 0).val) (rowTiles s xfer 0) = false ∧
     rowAsleep s xfer false 0 = none ∧
     xfer.srcTag = none ∧ remoteSrc s xfer = false) ∧
    (let x := { xfer with desc := copyDesc.set 0 (copyDesc.getD 0 0 + 2 ^ 16), filling := false }
     let s := setPair 0 (dmaPage (wideChan 0)) (dmaOff (wideChan 0) 0x58) 1 (wideAt (some x) none)
     issuer (s.chan (wideChan 0)) = some x ∧ (descOf x.desc).pace = true ∧ x.counted ≤ x.issued ∧ paceGo s (wideChan 0) x = false) ∧
    (let x := { xfer with issued := 1, rowsIn := [(0, List.replicate 16 (7, false))] }
     let s := wideAt (some x) none
     let d := descOf x.desc
     writer s (wideChan 0) = some x ∧ x.stop ≠ 2 ∧ unreadyTiles s x 0 = [] ∧ (s.chan (wideChan 0)).resumed = none ∧
     waitersBefore s (.chan (wideChan 0).val) (rowTiles s x 0) = false ∧ rowAsleep s x true 0 = none ∧
     rowAligned (winIn s d.dest.local) (d.rowAddr d.dest 0) 16 = true ∧ rowAligned (.dmem 0) 0xF0000000002 16 = false ∧ d.kind = .copy ∧ d.dest.tr = false ∧
     d.dest.module = moduleId s ∧ winIn s d.dest.local = .tile 0 ∧ 0xE0000000000 ≤ d.rowAddr d.dest 0 ∧ remoteDst s x = false) ∧
    (let s := wideAt (some xfer) none (fun k => { k with suspended := some (0, 0), late := [5] })
     (s.chan (wideChan 0)).suspended = some (xfer.serial, 0) ∧ (s.chan (wideChan 0)).active = some xfer ∧
     unreadyTiles s xfer 0 = [] ∧ firstWaits s (.chan (wideChan 0).val) = true ∧
     (s.chan (wideChan 0)).late = 5 :: [] ∧ s.txn.deferred = []) ∧
    (let x := { xfer with issued := 1, written := 1, landed := 1 }
     let s := wideAt (some x) none
     (s.chan (wideChan 0)).active = some x ∧ x.stop ≠ 1 ∧ xferRows x.desc ≤ x.landed ∧ backIn s x = true) ∧
    (let x := { xfer with issued := 1, stop := 1 }
     let s := wideAt (some x) none
     (s.chan (wideChan 0)).active = some x ∧ x.stop = 1 ∧ x.wpart = 0 ∧ x.written ≤ x.landed ∧ backIn s x = true) ∧
    (let x := { xfer with desc := copyDesc.set 0 (copyDesc.getD 0 0 + 2 ^ 17), unreported := 1, step := 1 }
     let s := wideAt (some x) none
     (s.chan (wideChan 0)).active = some x ∧ x.owner = none ∧ (descOf x.desc).prog = true ∧ x.stop = 0 ∧ 0 < x.step ∧
     x.step ≤ x.unreported ∧ remoteDst s x = false) := by
  decide +kernel
/-- The row of the transfer settles nothing: its ranges are tile memory's. -/
theorem witness_RowMovement_settled : let s := wideAt (some xfer) none
    settleRow xfer 0 s = s := by
  decide +kernel

/-- Bucket 0 enabled, the module its member and home, of 4 elements, with a send buffer and a member map of module 0. -/
def bucket0 (s : State) : State :=
  setWord (entryBank 0) redPage 0x124 7 <| setWord (entryBank 0) redPage 0x130 4 <| setWord (entryBank 0) redPage 0x110 1
    { s with mem := [(0, 1)] }

/-- Slot 0 FIXED. -/
def slot0 (f : CalSlot → CalSlot) (s : State) : State := calMod 0 (fun x => f { x with cfg := { x.cfg with mode := 3 }, forStep := some 0 }) s

/-- A part of the most elements that the bucket holds, one of too many elements, and one of none. -/
theorem witness_ReduceCommands :
    (∀ op ∈ [1, 2],
      let w := cmd op [(4, 96)]
      let x := { Member.fresh 0 0 with retained := some [1, 2, 3, 4], sent := true }
      let s := slot0 id (bucket0 (withTreg shorts256 (queueAt .reduce w)))
      let t := if op = 2 then { s with red := { s.red with members := [(0, x)], failed := [x.epoch] } } else s
      let f := rcmdOf w
      Stands 0 .reduce (entry w) t ∧ cmdOp w = op ∧ redReady t 0 (op == 2) (entry w) = true ∧ redWaits t 0 (op == 2) (entry w) = false ∧
      (t.core 0).sched.task = some task ∧ rskipCause (treg t 0 f.tr) f = 0 ∧ refuseCause t 0 (op == 2) f = 0 ∧
      partsDigestOnly t 0 = false ∧ redTagsOk t 0 (entry w) = true ∧ t.poison = []) ∧
    (let w := cmd 1 [(5, 96)]
     let s := slot0 id (bucket0 (withTreg shorts256 (queueAt .reduce w)))
     rskipCause (treg s 0 (rcmdOf w).tr) (rcmdOf w) = 0 ∧ refuseCause s 0 false (rcmdOf w) = 3 ∧
     redReady s 0 false (entry w) = true) ∧
    rskipCause (tregOf shorts256) (rcmdOf (cmd 1 [])) = 2 := by
  unfold Stands; decide +kernel

/-- A message to the module from itself. -/
def redMsgOf (r : RedMsg) : Msg := ⟨0, 0, 4, 0, 2, 0, 0, [], .red r⟩
def red0 : RedMsg := ⟨0, 1, 0, 0, 0, 0, false, none, 0, 0, 0, 0, 1, [1, 2, 3, 4], []⟩

/-- A message of a flow that the module does not know arrives. -/
theorem arrives_fresh (m : Msg) (kind : Nat) (s : State) (h : s.txn.flows = []) (hd : m.dest = moduleId s)
    (hk : m.kind = kind) : Arrives m kind s := by
  refine ⟨hd, hk, ?_⟩
  rw [h]
  intro i e hm
  cases hm

/-- Bucket 0 with its member's state for step 0. -/
def memberAt (x : Member) : State :=
  let s := slot0 id (bucket0 live)
  { s with red := { s.red with members := [(0, x)] } }

/-- The same with slot 0 AGREED and its agreement pending. -/
def agreeingAt (f : CalSlot → CalSlot) : State :=
  calMod 0 (fun x => f { x with cfg := { x.cfg with mode := 2 }, pendAgree := true }) (memberAt (Member.fresh 0 100))

theorem witness_MemberEffects :
    (∀ n ∈ [1, 4], ∀ e ∈ [false, true],
      let x := { Member.fresh 0 100 with ready := n, staging := [1, 2, 3, 4], ended := e }
      let s := memberAt x
      firstSend (waitingSends s 0) = some (0, 0) ∧ memberOf s 0 0 = some x ∧ lowerSent s 0 0 0 = true ∧
      x.deadline = some 100 ∧ (calGet s (bkSlot s 0)).cfg.mode ≠ 2) ∧
    (let x := Member.fresh 0 100
     memberOf (memberAt x) 0 0 = some x ∧ nextMember (memberAt x) 0 = some x ∧ x.ready = 0 ∧ x.sent = false ∧ x.deadline = some 100 ∧ x.retained = none) ∧
    (let s := agreeingAt id
     memberOf s 0 s.bnd.step = some (Member.fresh 0 100) ∧ (calGet s (bkSlot s 0)).cfg.mode = 2 ∧
     (calGet s (bkSlot s 0)).due = false ∧ (calGet s (bkSlot s 0)).pendAgree = true ∧ (calGet s (bkSlot s 0)).forStep = some 0 ∧
     nextMember s 0 = some (Member.fresh 0 100)) ∧
    (let x := { Member.fresh 0 100 with sent := true, retained := some [1, 2, 3, 4], epoch := 9 }
     let s := memberAt x
     memberOf s 0 0 = some x ∧ x.retained.isSome = true ∧ x.clearSent = false ∧ epochClear s 9 = true ∧
     mfind s.red.members (parKey 0 1) = none ∧ redMsgOk s { red0 with type := 7 } = true) := by
  decide +kernel
/-- AGREE of the step in force, of the next, and of a step whose derivation is due; nothing of the bucket is overdue. -/
theorem witness_MemberEffects_agree :
    ∀ due ∈ [false, true], ∀ n ∈ [0, 1],
      let s := agreeingAt (fun x => { x with due := due, forStep := if due then none else some 0 })
      let r := { red0 with type := 5, step := n }
      redMsgOk s r = true ∧ settleBucket 0 (arrived (redMsgOf r) s) = arrived (redMsgOf r) s ∧ s.bnd.step = 0 ∧
      (calGet s (bkSlot s 0)).due = due ∧ (calGet s (bkSlot s 0)).forStep = (if due then none else some 0) ∧ (calGet s (bkSlot s 0)).pendAgree = true ∧
      (memberOf s 0 0).map (·.closed) = some false := by
  decide +kernel
theorem witness_MemberEffects_arrives (r : RedMsg) (x : Member) : Arrives (redMsgOf r) 2 (memberAt x) ∧
    redBody (redMsgOf r) = some r := ⟨arrives_fresh _ _ _ rfl (by show 0 = moduleId (slot0 id (bucket0 live)); decide +kernel) rfl, rfl⟩

/-- A record of step 0 of bucket 0. -/
def record (state : Nat) (included : List Nat) : Record := ⟨0, state, [0, 0, 0, 0], included, [], [], 0, 0, 0, 100, 50, false, false, none, false⟩
def homeAt (state : Nat) (included : List Nat) : State :=
  let s := slot0 id (bucket0 live)
  { s with red := { s.red with records := [(0, record state included)] } }

theorem witness_HomeEffects :
    (let s := homeAt 1 []
     let r := { red0 with scale := (referenceOf s 0 0).getD 0 }
     redMsgOk s r = true ∧ recordBusy s r = false ∧ s.red.waiting.any (sameChannel (redMsgOf r)) = false ∧
     settleBucket 0 (arrived (redMsgOf r) s) = arrived (redMsgOf r) s ∧
     recordOf s 0 0 = some (record 1 []) ∧ r.type = 1 ∧
     [r.src].any (record 1 []).accounted = false ∧ referenceOf s 0 0 = some r.scale ∧
     referenceOf s 0 0 ≠ some (r.scale + 1) ∧ redMsgOk s { r with type := 3, cause := 1 } = true ∧
     (∀ q ∈ [{ r with scale := r.scale + 1 }, { r with type := 3, cause := 1 }],
       settleBucket 0 (arrived (redMsgOf q) s) = arrived (redMsgOf q) s)) ∧
    (∀ n ∈ [2, 3], ∀ k ∈ [1, 2, 6],
      let s := homeAt n [0]
      let r := { red0 with type := k }
      redMsgOk s r = true ∧ recordBusy s r = false ∧ s.red.waiting.any (sameChannel (redMsgOf r)) = false ∧
      settleBucket 0 (arrived (redMsgOf r) s) = arrived (redMsgOf r) s ∧ recordOf s 0 0 = some (record n [0]) ∧
      (record n [0]).delivered = false ∧ (record n [0]).included.contains r.src = true) := by
  decide +kernel
/-- PROPOSE of two members, the agreement that waits, and the three acts of a record and its parity. -/
theorem witness_HomeEffects_times :
    (let s := setWord (entryBank 0) redPage 0x12C 1 (homeAt 1 [])
     let r := { red0 with type := 4 }
     redMsgOk s r = true ∧ settleBucket 0 (arrived (redMsgOf r) s) = arrived (redMsgOf r) s ∧ 1 < bkMembers s 0 ∧
     agreementOf s 0 0 = none) ∧
    (let a : Agreement := ⟨0, [(0, 5)], 0, none, false, false⟩
     let s := { live with red := { live.red with agreements := [(agKey 0 0, a)] } }
     (waitingAgreements s 0).find? (fun a => a.step % 2 == 0) = some a) ∧
    (∀ n ∈ [1, 2], mfind (homeAt n [0]).red.records 0 = some (record n [0]) ∧ (record n [0]).step % 2 = 0) ∧
    (let s := setWord 0 bndPage 0x008 1 (bucket0 live)
     bkIsHome s 0 = true ∧ pageEn s 0x007 = true ∧ mfind s.red.records (parKey 0 s.bnd.step) = none) := by
  decide +kernel
theorem witness_HomeEffects_arrives (r : RedMsg) (n : Nat) (l : List Nat) : Arrives (redMsgOf r) 2 (homeAt n l) :=
  arrives_fresh _ _ _ rfl (by show 0 = moduleId (slot0 id (bucket0 live)); decide +kernel) rfl

/-- CONTRIBs of modules 0 and 1 to an open record of four members. -/
theorem witness_CombinedContribution :
    let s := setWord (entryBank 0) redPage 0x12C 3 (homeAt 1 [])
    let a := { red0 with scale := (referenceOf s 0 0).getD 0 }
    let b := { a with src := 1 }
    a.type = 1 ∧ recordOf s a.bucket a.step = some (record 1 []) ∧ (record 1 []).included.Pairwise (· < ·) ∧ (redMembers a).Nodup ∧
    (∀ m ∈ redMembers a, m ∉ redMembers b ∧ (record 1 []).accounted m = false) ∧
    (∀ m ∈ redMembers b, (record 1 []).accounted m = false) ∧ a.elems.length = bkLen s a.bucket ∧
    (record 1 []).sum.length = bkLen s a.bucket ∧ referenceOf s a.bucket a.step = some a.scale ∧
    (record 1 []).included.length + (record 1 []).excluded.length + (redMembers a).length < bkMembers s a.bucket ∧
    redMembers (joinRed a b) = [0, 1] := by
  decide +kernel

/-- H and G at both ends of their ranges and beyond; the order that no seed may have; a derivation that is due, in every mode
that needs no agreement, with no lower slot due. -/
theorem witness_CalibrationEffects :
    reaches .vesper live = true ∧
    (∀ x ∈ [(4, 1), (60, 31)], 4 ≤ bitsOf (x.1 * 2 ^ 8 + x.2 * 2 ^ 24) 13 8 ∧ bitsOf (x.1 * 2 ^ 8 + x.2 * 2 ^ 24) 13 8 ≤ 60 ∧
      bitsOf (x.1 * 2 ^ 8 + x.2 * 2 ^ 24) 28 24 ≠ 0) ∧
    bitsOf (3 * 2 ^ 8 + 2 ^ 24) 13 8 < 4 ∧ 60 < bitsOf (61 * 2 ^ 8 + 2 ^ 24) 13 8 ∧ bitsOf (4 * 2 ^ 8) 28 24 = 0 ∧
    bitsOf 0x401 10 0 ≠ 0x400 ∧ bitsOf 0x400 10 0 = 0x400 ∧
    (let s := slot0 id (bucket0 live)
     let due := fun (f : CalSlot → CalSlot) (t : State) =>
       calMod 0 (fun x => f { x with due := true, cfg := { x.cfg with mode := 2 } }) t
     let closed := { s with red := { s.red with members := [(0, { Member.fresh 0 100 with closed := true })] } }
     (calGet (due id s) 0).due = true ∧ (calGet (due id s) 0).cfg.mode = 2 ∧ mfind (calGet (due id s) 0).kept 0 = none ∧
     (calGet (due id s) 0).dueStep = 0 ∧ boundClosed (due id s) 0 0 = false ∧ boundClosed (due id closed) 0 0 = true ∧
     mfind (calGet (due (fun x => { x with kept := [(0, 7)] }) s) 0).kept 0 = some 7) ∧
    (∀ n ∈ [0, 1, 3], let s := calMod 1 (fun x => { x with due := true, cfg := { x.cfg with mode := n } }) live
      (calGet s 1).due = true ∧ (calGet s 1).writes = false ∧ (calGet s 1).cfg.mode ≠ 2 ∧
      ∀ q : Fin 1, (calGet s q.val).due = false) := by
  decide +kernel

/-! ### Hypotheses: the scheduler, unified memory, the update engine and the boundary -/

/-- Core 0 with slot 0 in a state and its cores in service. -/
def schedAt (n : Nat) (k : Option Task := none) : State :=
  setWord 0 relPage 0x130 15
    (core0 (fun x => { x with sched := { x.sched with slots := [(0, ⟨n, 1⟩)], task := k } }) live)

theorem witness_SlotEffects :
    (∀ n ∈ [0, 1, 2, 3, 4, 5], (slotOf ((schedAt n).core 0) 0).state = n) ∧
    (regAt (tsPage 0 0) (tsOff 0)).1 ≠ 1 ∧ (regAt (tsPage 0 1023) (tsOff 1023 + 8)).1 = 1 ∧
    armQualifies (schedAt 5) .vesper (slotCtx (schedAt 5) 0 0) = true ∧ inService (schedAt 5) 0 = true ∧
    armQualifies (schedAt 5) (.func 0 1) (slotCtx (schedAt 5) 0 0) = false ∧
    inService (setWord 0 relPage 0x130 14 (schedAt 5)) 0 = false ∧
    ((schedAt 2 (some task)).core 0).sched.task = some task ∧ task.slot = 0 ∧ task.sampled = false ∧
    ((schedAt 4 (some { task with halt := .cancel })).core 0).sched.task = some { task with halt := .cancel } ∧
    enginesIdle (schedAt 4 (some { task with halt := .cancel })) 0 = true ∧ reaches .vesper (schedAt 0) = true ∧
    State.reset.power.meridian ≠ 2 ∧ mfind (schedAt 0).heldLow (rkey 5 (trPage 0 255) (trOff 255 + 0x18)) = none := by
  decide +kernel

/-- Slot 1023 WAITING of an enabled context, its page READY. -/
theorem witness_DispatchEffects :
    let s := setWord 0 relPage 0x130 15 (setWord (entryBank 0) ctxPage 0x104 1 (core0 (fun x => { x with
      ctl := { x.ctl with pages := [(0, .ready)] }, sched := { x.sched with slots := [(1023, ⟨1, 1⟩)] } }) live))
    mayDispatch s 0 = true ∧ (slotOf (s.core 0) 1023).state = 1 ∧ slotReady s 0 1023 = true ∧
    mget PageState.opened (s.core 0).ctl.pages (slotPage s 0 1023) = .ready ∧ ctxEnabled s (slotCtx s 0 1023) = true ∧
    (s.core 0).sched.slots = [(1023, ⟨1, 1⟩)] := by
  decide +kernel
/-- No slot waits beside the one that is listed. -/
theorem witness_DispatchEffects_only (k : Core) (m : Nat) (h : k.sched.slots = [(1023, ⟨1, 1⟩)]) :
    (slotOf k m).state = 1 → m = 1023 := by
  intro w
  by_cases hm : m = 1023
  · exact hm
  · have : (1023 : Nat) ≠ m := fun e => hm e.symm
    simp [slotOf, h, mget, mfind, this] at w

/-- Core 0 with a task at one of its turns. -/
theorem witness_RunEffects :
    (let s := withTask task (fun x => { x with ctl := { x.ctl with ended := true } })
     (s.core 0).taskOver = true ∧ task.run = .original ∧ task.matrix = true ∧ task.lineFail = false ∧ task.sampled = false ∧
     task.parts = [] ∧ task.held = []) ∧
    (∀ k ∈ [{ task with halt := .fault }, { task with guarded := true }, { task with runEnded := true, sampled := true },
        { task with runEnded := true, lineFail := true }, { task with runEnded := true, run := .check },
        { task with runEnded := true, run := .check, first := some task.digest }],
      ((withTask k).core 0).sched.task = some k ∧ enginesIdle (withTask k) 0 = true) ∧
    (let part := wideAt (some { xfer with owner := some (0, flight0), wpart := 16 }) none
     part.chans.any (fun q => q.active.any (fun y => y.ofCore 0 && decide (0 < y.wpart))) = true ∧
     (withTask task).chans.any (fun q => q.active.any (fun y => y.ofCore 0 && decide (0 < y.wpart)) ||
       q.shadow.any (fun y => y.ofCore 0 && decide (0 < y.wpart))) = false) ∧
    mismatched { task with run := .check } = true ∧ mismatched { task with run := .check, first := some task.digest } = false := by
  decide +kernel

/-- Core 0 with a state of page 3, which its task runs or not. -/
def pageAt (st : PageState) (k : Option Task) : Core :=
  { Core.reset with ctl := { Ctl.reset with pages := [(3, st)] }, sched := { Sched.reset with task := k } }

theorem witness_ContextEffects :
    reaches .vesper live = true ∧
    mayWriteCtx live .vesper (ctxSel live .vesper) = true ∧ mayWriteCtx live (.core 3) (ctxSel live (.core 3)) = false ∧
    bitOf (0xFF : W32).toNat 8 = false ∧
    (∀ st ∈ [PageState.opened, .ready, .closing], mget PageState.opened (pageAt st none).ctl.pages (3 : Fin 4).val = st) ∧
    pageActive (pageAt .ready (some { task with page := 3 })) 3 = true ∧ pageActive (pageAt .ready none) 3 = false := by
  decide +kernel
/-- A running task is its slot's; without one, no slot runs. -/
theorem witness_ContextEffects_running (n : Nat) :
    (slotOf ((schedAt 2 (some task)).core 0) n).state = 2 → ((schedAt 2 (some task)).core 0).sched.task.map (·.slot) = some n := by
  intro w
  have h : ((schedAt 2 (some task)).core 0).sched.slots = [(0, ⟨2, 1⟩)] ∧
      ((schedAt 2 (some task)).core 0).sched.task.map (·.slot) = some 0 := by decide +kernel
  by_cases hn : n = 0
  · rw [hn, h.2]
  · have : (0 : Nat) ≠ n := fun e => hn e.symm
    simp [slotOf, h.1, mget, mfind, this] at w
theorem witness_ContextEffects_cancel (d : CoreId) (n : Nat) :
    ¬ ((slotOf (live.core d) n).state = 2 ∨ (slotOf (live.core d) n).state = 3) := by
  have h : ∀ d : CoreId, (live.core d).sched.slots = [] := by decide +kernel
  simp [slotOf, h d, mget, mfind]

/-- A request of Vesper: first page, count and attributes. -/
def memReq (first count attr : Nat) (s : State) : State :=
  setWord 5 memPage 0x130 first (setWord 5 memPage 0x134 count (setWord 5 memPage 0x138 attr s))

/-- A page of context 0, resident in frame 0 or not. -/
def page0 (frame : Option Nat) (moving : Nat) : MPage := ⟨0, frame, none, false, false, 0, 0, moving⟩
def withPage (p : Nat) (x : MPage) (tiles : Map TileCond) (s : State) : State :=
  { s with mig := { s.mig with pages := [(p, x)], tiles := tiles } }

/-- The last page allocated; no page; one that is not allocated freed; every other operation on one that is; one in progress. -/
theorem witness_MemoryRequests :
    (let s := memReq 1572863 1 0 live
     let m := memCmdOf s .vesper
     memBusy s .vesper = false ∧ m.place ≠ 3 ∧ m.first + m.count = 1572864 ∧ memQualifies s .vesper m.ctx = true ∧
     0 < m.count ∧ m.pin = false ∧ lateRefusal s .vesper 1 m = none ∧ lateRefusal s .vesper 2 m = some 5) ∧
    (memCmdOf (memReq 0 0 0 live) .vesper).count = 0 ∧
    (∀ op ∈ [2, 3, 4, 5, 6, 7, 8],
      let s := setWord (entryBank 0) memPage 0x154 1 (memReq 7 1 0 (withPage 7 (page0 (some 0) 0) [] live))
      lateRefusal s .vesper op (memCmdOf s .vesper) = none) ∧
    (let s := setWord (entryBank 0) memPage 0x154 1 (memReq 1572863 1 (2 ^ 16) live)
     let m := memCmdOf s .vesper
     m.pin = true ∧ lateRefusal s .vesper 1 m = none ∧ useOf s m.ctx < effQuota s m.ctx ∧ (freeFrame s).isSome = true ∧ m.count = 1) ∧
    (let m := memCmdOf (memReq 1572863 2 0 live) .vesper
     m.place ≠ 3 ∧ 1572864 < m.first + m.count) ∧
    (memCmdOf (memReq 0 1 (3 * 2 ^ 17) live) .vesper).place = 3 ∧
    (let s := memReq 0 1 0 live
     memQualifies s (.core 0) 0 = false ∧ memBusy s (.core 0) = false) ∧
    memBusy (setWord 5 memPage 0x144 1 live) .vesper = true ∧ (0 : BitVec 4).toNat = 0 ∧ 8 < (9 : BitVec 4).toNat := by
  decide +kernel

theorem witness_RequestCompletion :
    (∀ op ∈ [2, 3, 5, 6, 7],
      let q : MemReq := ⟨op, [7], 1, none, 0⟩
      let s := withPage 7 (page0 (some 0) 2) [(3584, .clean), (4095, .dirty)] live
      let t := { s with mig := { s.mig with requests := [(4, q)] } }
      mfind t.mig.requests (reqCode .vesper) = some q ∧ q.left = [7] ∧ t.mpage 7 = some (page0 (some 0) 2) ∧
      t.mig.faults = [] ∧ q.left.any (pageWaited t) = false ∧ (page0 (some 0) 2).frame.isSome = true ∧ (page0 (some 0) 2).pinned = false ∧ (page0 (some 0) 2).moving = 2 ∧
      t.mig.pages.all (fun y => !y.2.wantsFrame) = true ∧ t.mig.tiles.Pairwise (fun a b => a.1 < b.1) ∧ t.power.meridian = 2) ∧
    (page0 none 1).moving ≤ 1 ∧ (page0 none 1).frame = none ∧ (freeFrame live).isSome = true ∧
    (let s := setWord (entryBank 0) memPage 0x154 1 (withPage 7 (page0 none 1) [] live)
     useOf s 0 < effQuota s 0) := by
  decide +kernel

/-- A LOW tile that faults; its fault waiting; a background fetch; a context over its quota; an idle one. -/
theorem witness_MigrationEffects :
    mayWriteQuota live .vesper 0 = true ∧ mayWriteQuota live (.core 0) 0 = false ∧
    (let s := withPage 7 (page0 (some 0) 1) [(4095, .low)] live
     let t := { s with mig := { s.mig with faults := [(4095, false, 0)] } }
     mfind s.mig.pages (4095 / 512) = some (page0 (some 0) 1) ∧ faults s false 4095 = true ∧ s.mig.faults = [] ∧
     nextFault t = some (4095, false, 0) ∧ t.mig.waiters = [] ∧ (∀ p, (t.host p).windowQ = []) ∧ t.power.meridian = 2 ∧ s.mpage 7 = some (page0 (some 0) 1) ∧
     tilesIn s 7 .low = 4095 :: []) ∧
    (let s := setWord (entryBank 0) memPage 0x154 0 (withPage 7 (page0 (some 0) 0) [] live)
     candidate s (fun y => decide (effQuota s y.ctx < useOf s y.ctx -
       countPages s (fun z => z.ctx == y.ctx && z.moving == 4))) = some 7 ∧ s.mpage 7 = some (page0 (some 0) 0) ∧
     (s.mig.pages.map (·.1)).Nodup) := by
  decide +kernel
/-- Two SEQ pages of an idle context, of which the older goes first; and none left that may go. -/
theorem witness_MigrationEffects_idle :
    let old : MPage := { page0 (some 0) 0 with place := 2 }
    let young : MPage := { page0 (some 1) 0 with place := 2, touched := 65000 }
    let at_ := fun (l : Map MPage) =>
      ({ live with now := 65535 * 2 ^ 20, mig := { live.mig with pages := l, ticks := 65535, idleSince := [] } } : State)
    let mine := fun (y : MPage) => y.place == 2 && y.ctx == 0
    let s := at_ [(6, young), (7, old)]
    ctxIdle s 0 = true ∧ (s.mig.pages.map (·.1)).Nodup ∧ (∀ y ∈ s.mig.pages, mine y.2 = true → y.2.moving ≠ 4) ∧
    candidate s mine = some 7 ∧ s.mpage 7 = some old ∧ ctxIdle (at_ []) 0 = true ∧ candidate (at_ []) mine = none := by
  decide +kernel

theorem witness_MemoryErrorEffects :
    scopeOpen { live with vesper := { live.vesper with scopes := 1, scopeEnds := [(0, live.now + 1)] } } 0 = true ∧
    scopeOpen { live with vesper := { live.vesper with scopes := 1, scopeEnds := [(0, live.now)] } } 0 = false ∧ scopeOpen live 0 = false ∧
    (fieldOf (setWord 0 memPage 0x10C 0 live) 0 memPage 0x10C 7 0 = 0) ∧
    (mget [] live.mig.ceRows (rowKey (.hbm 0) 0)).length + 1 < fieldOf (setWord 0 memPage 0x10C 2 live) 0 memPage 0x10C 7 0 ∧
    (live.core 0).sched.task = none ∧ ((withTask task).core 0).sched.task = some task ∧ task.ctx < 16384 := by
  decide +kernel

/-- Layer 16,383 with an entry of rule 1 of one element, and its run state. -/
def layerAt (y : Layer) : State :=
  let b := entryBank 16383
  setWord b updPage 0x104 1 <| setWord b updPage 0x108 1 <| setWord b updPage 0x10C 1 <| setWord b updPage 0x14C 0x3F800000
    { live with layers := [(16383, y)] }

theorem witness_UpdateEffects :
    (lyrGet live (updSel live .vesper)).state = 0 ∧
    (lyrGet { live with layers := [(0, ⟨1, [], true, false, none, false⟩)] } (updSel live .vesper)).state ≠ 0 ∧
    (∀ y ∈ [(⟨1, [], true, false, none, false⟩ : Layer), ⟨1, [(0, false)], false, false, none, false⟩,
        ⟨1, [(0, true)], false, false, none, false⟩],
      let s := layerAt y
      s.updating = none ∧ nextLayer s = some 16383 ∧ (∀ x ∈ s.layers, (lentry s x.1).rule ≠ 0) ∧ lyrGet s 16383 = y ∧
      layerWaits s 16383 = false ∧
      rejectLayer (lentry s 16383) true = 0 ∧ rejectLayer (lentry s 16383) false = 0 ∧
      rejectLayer (lentry (setWord (entryBank 16383) updPage 0x108 0 s) 16383) y.copying ≠ 0) ∧
    readersDone (setWord (entryBank 0) updPage 0x170 1 live) 0 = false ∧ nextLayer live = none := by
  decide +kernel
/-- The end of an update that has written its copies, and of one that has not; and one whose last byte's tile is faulting. -/
theorem witness_UpdateEffects_end :
    (∀ w ∈ [true, false], let s := { layerAt ⟨2, [], false, false, some 0, w⟩ with updating := some (16383, 0) }
      s.updating = some (16383, 0) ∧ lyrGet s 16383 = ⟨2, [], false, false, some 0, w⟩ ∧
      (lastBytes (lentry s 16383)).any (fun x => gnomonWaits s x.1 x.2) = false) ∧
    (let s := withPage 0 (page0 (some 0) 1) [(0, .low)] (layerAt ⟨2, [], false, false, some 0, true⟩)
     let t := { s with mig := { s.mig with faults := [(0, false, 0)] } }
     (lastBytes (lentry t 16383)).any (fun x => gnomonWaits t x.1 x.2) = true ∧
     layerWaits { t with layers := [(16383, ⟨1, [], true, false, none, false⟩)] } 16383 = true) := by
  decide +kernel

/-- A layer of rule 1 or 4 whose tensors lie in page 0, one apart from the other, with an update to make. -/
def tensorsAt (rule : Nat) : State :=
  (List.range 11).foldl (fun s i => setWord (entryBank 16383) updPage (0x110 + 4 * i) (i + 1) s)
    (setWord (entryBank 16383) updPage 0x104 rule (withPage 0 (page0 none 0) [] (layerAt ⟨1, [(5, false)], false, false, none, false⟩)))

theorem witness_UpdateArithmetic : ∀ rule ∈ [1, 4],
    let s := tensorsAt rule
    let e := lentry s 16383
    s.updating = none ∧ nextLayer s = some 16383 ∧ (∀ x ∈ s.layers, (lentry s x.1).rule ≠ 0) ∧ layerWaits s 16383 = false ∧
    (lyrGet s 16383).copying = false ∧ (lyrGet s 16383).queue = [(5, false)] ∧ rejectLayer e false = 0 ∧
    e.extents.Pairwise (fun a b => a.1 + a.2 ≤ b.1 ∨ b.1 + b.2 ≤ a.1) ∧ (∀ x ∈ e.extents, x.1 + x.2 ≤ 0x200000) ∧
    allocated s 0 = true ∧ activeRow s e 0 = (rule == 1) ∧ blockPoison s e 0 0 = none ∧ e.k = 1 ∧ e.n = 1 := by
  decide +kernel
/-- Its tensors are allocated: they lie in the first page. -/
theorem witness_UpdateArithmetic_allocated (s : State) (l : List (Nat × Nat)) (h : ∀ x ∈ l, x.1 + x.2 ≤ 0x200000)
    (p : allocated s 0 = true) : ∀ x ∈ l, ∀ a, x.1 ≤ a → a < x.1 + x.2 → allocated s (pageOf a) = true := by
  intro x hx a _ ha
  have : pageOf a = 0 := Nat.div_eq_of_lt (Nat.lt_of_lt_of_le ha (h x hx))
  rw [this]; exact p

/-- The boundary page enabled, in a mode, with credits and debts. -/
def bndAt (mode credits debts hold : Nat) : State :=
  setWord 0 bndPage 0x008 1 <| setWord 0 bndPage 0x104 hold
    { live with bnd := { live.bnd with modeNow := mode, credits := credits, debts := debts, readyAt := some 0, outHigh := true } }

theorem witness_BoundaryEffects :
    pageEn live bndPage = false ∧ pageEn (bndAt 0 0 0 0) bndPage = true ∧ (bndAt 0 0 0 0).red.waiting = [] ∧ bitsOf (2 : W32).toNat 1 0 ≠ 3 ∧
    bitsOf (3 : W32).toNat 1 0 = 3 ∧ bitsOf (100000 : W32).toNat 16 0 = 100000 ∧ bitsOf (100001 : W32).toNat 16 0 = 100001 ∧
    moduleReady live = false ∧ moduleReady (bndAt 1 1 0 0) = true ∧ moduleReady (bndAt 0 0 0 0) = true ∧
    (moduleReady (bndAt 2 0 0 100000) = true ∧ fieldOf (bndAt 2 0 0 100000) 0 bndPage 0x104 16 0 = 100000 ∧
      (bndAt 2 0 0 100000).bnd.readyAt = some 0 ∧ (bndAt 2 0 0 100000).bnd.credits = 0) ∧
    (bndAt 1 15 1 0).bnd.debts = 1 ∧ (bndAt 1 15 0 0).bnd.credits = 15 ∧ (bndAt 1 14 0 0).bnd.credits < 15 ∧
    (bndAt 0 0 0 0).bnd.outHigh = true ∧
    moduleReady (setPair 0 bndPage 0x110 1 (bndAt 2 0 0 0)) = false ∧ live.power.modState = 3 ∧
    State.reset.power.modState < 2 ∧ (0 : W64).toNat = (bndAt 0 0 0 0).bnd.step ∧ (1 : W64).toNat ≠ (bndAt 0 0 0 0).bnd.step := by
  decide +kernel

/-! ### Hypotheses: links, routers and transactions -/

/-- Port 23 changed. -/
def portAt (f : Port → Port) (s : State := live) : State := modPort 23 f s

/-- Port 23 may train: its page and bit enabled. -/
def mayState (s : State) : State := setWord 0 ickPage 0x008 1 (setWord 0 (prtPage 23) (prtOff 23 0) 1 s)

theorem witness_PortStates :
    (∀ n ∈ [0, 1, 2, 3, 4, 5], (portOf (portAt (fun k => { k with state := n, leftDown := some 0, rest := true })) 23)
      = { Port.reset with state := n, leftDown := some 0, rest := true }) ∧
    (portOf live 23).state = 0 ∧ (portOf live 23).rest = false ∧
    (pageEn (mayState live) ickPage = true ∧ live.power.meridian = 2 ∧ (live.vesper.cfgOk && recordNat live 62 1 == 0) = false ∧
      withdrawn live 3 (23 : PortId).val = false ∧ live.rel.out = false) ∧
    bitOf (rawWord (mayState live) 0 (prtPage 23) (prtOff 23 0)) 0 = true ∧ reaches .vesper (mayState live) = true := by
  decide +kernel

/-- A flit of a type, with SEQ and ACK, to a destination. -/
def flitOf (ftype seq ack dest : Nat) : Flit :=
  ⟨mkFlit { FlitHdr.zero with
    ftype := ftype, seq := seq, ack := ack, dest := dest, head := true, tail := true, valid := 8, ackv := ftype == 0,
    crv := true, crcnt := 3 } [], false, 2, 0⟩

/-- A body of 252 bytes with its CRC behind it has the right CRC. -/
theorem crcOk_body (b : List Byte) (hb : b.length = 252) : flitCrcOk (b ++ bytesOfNat 4 (crc32c b).toNat) = true := by
  have read : ∀ n, natOfBytes (bytesOfNat 4 n) = n % 2 ^ 32 := by
    intro n
    simp [natOfBytes, bytesOfNat]
    omega
  have last : ∀ n, (bytesOfNat 4 n).length = 4 := by simp [bytesOfNat]
  unfold flitCrcOk
  rw [List.length_append, hb, last, List.drop_left' hb, List.take_left' hb, read, Nat.mod_eq_of_lt (crc32c b).isLt]
  simp
theorem crcOk_mkFlit (h : FlitHdr) : flitCrcOk (mkFlit h []) = true := by
  apply crcOk_body
  rw [List.length_append, List.append_nil, List.length_replicate]
  rfl
theorem witness_FlitEffects_crc (n seq ack dest : Nat) : flitCrcOk (flitOf n seq ack dest).bytes = true := crcOk_mkFlit _

/-- Ports 0, 22 and 23 UP, and module 9 reached by port 23. -/
def transit : State :=
  let up := fun (k : Port) => { k with state := 5 }
  let s := modPort 0 up (modPort 22 up (portAt up))
  { s with ick := { s.ick with routes := [(9, 0x1800000)], inForce := [(9, 2 ^ 23)] } }
/-- The same while flows of module 9 that port 22 took are held. -/
def holding : State := { transit with ick := { transit.ick with holds := [⟨9, 2 ^ 22, 2 ^ 23, 50⟩] } }

/-- A flit of each type that is good, one of a reserved type, and one whose codewords are lost. -/
theorem witness_FlitEffects :
    (∀ n ∈ [0, 1, 2, 3, 4], (flitOf n 0 2047 0).fecBad = false ∧ (flitOf n 0 2047 0).fecUnc = 0 ∧
      flitReserved (flitOf n 0 2047 0).bytes = 0 ∧ (flitHdr (flitOf n 0 2047 0).bytes).ftype = n ∧
      (flitHdr (flitOf n 0 2047 0).bytes).ack = 2047) ∧
    (∀ n ∈ [0, 4, 5], (portOf (portAt (fun k => { k with state := n })) 23).state = n) ∧
    (let h := flitHdr (flitOf 1 0 0 0).bytes
     h.seq = (portOf live 23).rxSeq ∧ h.dest = moduleId live ∧ h.head = true ∧ h.tail = true ∧ h.valid ≠ 0) ∧
    (flitHdr (flitOf 1 1 0 0).bytes).seq ≠ (portOf live 23).rxSeq ∧
    (flitHdr (flitOf 1 2047 0 0).bytes).seq = 2047 ∧
    (portOf live 23).lastNak ≠ some 2047 ∧ (portOf live 23).replay = [] ∧
    (portOf (portAt (fun k => { k with lastNak := some 2047, nakRun := 255 })) 23).lastNak = some 2047 ∧
    (flitHdr (flitOf 0 0 2047 0).bytes).ackv = true ∧ ({ flitOf 1 0 0 0 with fecUnc := 1 } : Flit).fecUnc = 1 := by
  decide +kernel
theorem witness_FlitEffects_replay (f : FlitBytes) :
    (portOf (portAt (fun k => { k with replay := [f] })) 23).replay = [] ++ f :: [] := rfl
/-- In transit by port 23's router, by another, held; without a route; and with too many hops. -/
theorem witness_FlitEffects_transit :
    (let s := transit
     let h := flitHdr (flitOf 1 0 0 9).bytes
     let idle := fun (s : State) =>
       s.ick.buffers = [] ∧ s.ick.feed = [] ∧ s.ick.routed = [] ∧ s.ick.chosen = [] ∧ s.ick.granted = [] ∧ s.ick.parked = []
     idle s ∧ h.dest ≠ moduleId s ∧
     (∀ p ∈ [(0 : PortId), 23], discardCause s (bufKey p.val h.vc h.cls) h = 0 ∧ (portOf s p).state = 5) ∧
     routePort s h.src 9 h.vc h.flow = some 23 ∧ isHeld s h = false ∧ (23 : PortId).val / 6 ≠ (0 : PortId).val / 6 ∧
     idle holding ∧ isHeld holding h = true ∧ discardCause holding (bufKey 0 h.vc h.cls) h = 0 ∧
     discardCause s (bufKey 0 h.vc h.cls) { h with dest := 8 } = 1 ∧
     discardCause s (bufKey 0 h.vc h.cls) { h with hops := 63 } = 2) := by
  decide +kernel

/-- A message to another module, or to this one. -/
def msgTo (dest vc : Nat) : Msg := ⟨0, dest, vc, 0, 1, 0, 0, [], .txn ⟨7, 0, 0, 0, 7, 0⟩ (bytesOfNat 8 1)⟩

theorem witness_SendingEffects :
    (∀ n ∈ [3, 4, 5], (portOf (portAt (fun k => { k with state := n })) 23).state = n) ∧
    (let s := portAt (fun k => { k with state := 5 })
     chooseFlit s 23 = none ∧ (innerMove s).isNone = true ∧ (portOf s 23).nakDue = false ∧ (portOf s 23).resend = []) ∧
    (portOf (portAt (fun k => { k with nakDue := true, resend := [(flitOf 1 0 0 0).bytes] })) 23).resend.length = 1 ∧
    (let s := portAt (fun k => { k with credits := [(14, 1)] }) { transit with ick := { transit.ick with
       buffers := [(bufKey 27 7 0, flitsOf (msgTo 9 7))] } }
     (chooseFlit s 23).map (fun x => (x.1, x.2.1)) = some (7, 54) ∧
     (mget [] s.ick.buffers (bufKey 27 7 0)).map (fun g => (nextRoute s (bufKey 27 7 0) g).isSome) = [true] ∧ (innerMove s).isNone = true ∧ (portOf s 23).resend = [] ∧
     (portOf s 23).nakDue = false ∧ (portOf s 23).replay.length < 1024 ∧ (portOf s 23).state = 5) ∧
    (∀ h, flowHold holding 0 9 7 0 = some h → pickPort h.new 0 9 7 0 = some 23 ∧ pickPort h.new 0 9 7 0 ≠ some 22) ∧
    (flowHold holding 0 9 7 0).isSome = true ∧ flowHold live 0 9 7 0 = none ∧
    reaches .vesper live = true ∧ pageEn (mayState live) ickPage = true ∧ pageEn live ickPage = false ∧
    (let s := { live with ick := { live.ick with inForce := [(9, 1)] } }
     routeMask s 9 ≠ mget 0 s.ick.inForce 9) := by
  decide +kernel
theorem witness_SendingEffects_whole (h : FlitHdr) : (mkFlit h []).length = 256 := by
  have head : ∀ n, (bytesOfNat 12 n).length = 12 := by simp [bytesOfNat]
  have last : ∀ n, (bytesOfNat 4 n).length = 4 := by simp [bytesOfNat]
  show (bytesOfNat 12 h.word ++ [] ++ List.replicate 240 (0 : Byte) ++ bytesOfNat 4 _).length = 256
  rw [List.length_append, List.length_append, List.length_append, head, last, List.length_replicate]
  rfl
/-- What is offered: to a module reached, to one that is not, to this one, and nothing of a VC; a SOOP that is about to leave. -/
theorem witness_SendingEffects_inject :
    (let s := setWord 0 ickPage 0x100 (2 ^ 31)
       { transit with ick := { transit.ick with outbox := [msgTo 9 7, msgTo 8 6, msgTo 0 5] } }
     mayInject s (msgTo 9 7) = true ∧ mayInject s (msgTo 8 6) = true ∧ mayInject s (msgTo 0 5) = true ∧
     mayInject s (msgTo 9 6) = false ∧ idValid s = true ∧ flitCount (msgTo 9 7) = 1 ∧ moduleId s = 0 ∧
     routePort s 0 8 6 0 = none ∧ routePort s 0 9 7 0 = some 23 ∧ 0 < fieldOf s 0 ickPage 0x104 5 0 ∧
     s.ick.buffers = [] ∧ s.ick.feed = [] ∧ s.ick.routed = [] ∧ s.ick.chosen = [] ∧ s.ick.granted = []) ∧
    (let s := { live with ick := { live.ick with outbox := [msgTo 9 7] }, txn := { live.txn with leaving := [(4, msgTo 9 7)] } }
     mayInject s (msgTo 9 7) = true ∧ idValid s = false ∧ s.txn.leaving = [(4, msgTo 9 7)]) := by
  decide +kernel

/-- A request message of a type with its header's address, length and AOP. -/
def txnMsg (ttype addr lenm1 aop : Nat) (d : List Byte) : Msg := ⟨0, 0, 0, 0, 1, 0, 0, [], .txn ⟨ttype, 0, 0, addr, lenm1, aop⟩ d⟩
def replyMsg (ttype : Nat) (r : SubReply) : Msg := ⟨0, 0, 1, 0, 1, 0, 0, [], .reply ttype [r]⟩

theorem arrives_live (m : Msg) (hd : m.dest = 0) (hk : m.kind = 1) : Arrives m 1 live :=
  arrives_fresh m 1 live rfl (hd.trans (by decide +kernel)) hk

/-- The last bytes of tile memory, of a 4 KiB block and of a byte range; a page that is not allocated; a reserved address; a
tile that faults. -/
theorem witness_TargetEffects :
    targetStatus live 0xE0001FFFF00 256 = 0 ∧ crosses4k 0xE0001FFFF00 256 = false ∧ 255 + 1 ≤ 256 ∧
    crosses4k 0xE0001FFFF01 256 = true ∧ targetStatus live 0 8 = 1 ∧ targetStatus live 0xF0000000000 8 = 2 ∧
    (List.replicate 256 (0 : Byte)).length = 255 + 1 ∧
    (∀ aop ∈ [1, 2, 3, 4, 5], aop ≤ 5) ∧ 0xE0001FFFFF8 % 8 = 0 ∧ targetStatus live 0xE0001FFFFF8 8 = 0 ∧ 0xE0001FFFFF9 % 8 ≠ 0 ∧
    (natOfBytes ((bytesOfNat 8 64).take 8) = 64 ∧ 0xE0001FFFFC0 % 64 = 0 ∧ fabricReach live 0xE0001FFFFC0 = true ∧
      firstUnreached live 0xE0001FFFFC0 64 = none ∧ targetStatus live 0xE0001FFFFC0 64 = 0) ∧
    asleepAt live 0xE0001FFFFF8 = none ∧
    (let m : Msg := { txnMsg 2 0xE0001FFFF00 255 0 (List.replicate 256 0) with bad := [0, 1] }
     m.bad.contains ((24 + 0) / 240) = true ∧ m.bad.contains ((24 + 255) / 240) = true ∧ flitCount m ≤ 18) ∧
    (let m : Msg := { txnMsg 3 0xE0001FFFFF8 7 1 (bytesOfNat 8 1 ++ bytesOfNat 8 0) with bad := [0] }
     m.bad.contains 0 = true ∧ bytesOfNat 8 1 ++ bytesOfNat 8 0 ≠ [] ∧ flitCount m ≤ 18) ∧
    (0xE0007FFFFC0 % 64 = 0 ∧ natOfBytes ((bytesOfNat 8 128).take 8) = 128 ∧
      (firstUnreached live 0xE0007FFFFC0 128).isSome = true) ∧
    (∀ k ∈ [1, 2, 3, 7], 18 < flitCount (txnMsg k 0 0 0 (List.replicate 4300 0)) ∧ ttypeOf (txnMsg k 0 0 0 []) = k) ∧
    flitCount (txnMsg 2 0xE0001FFFF00 255 0 (List.replicate 256 0)) ≤ 18 ∧ 18 < flitCount (txnMsg 1 0 0 0 (List.replicate 4300 0)) ∧
    ttypeOf (txnMsg 9 0 0 0 []) = 9 ∧ ttypeOf (txnMsg 0 0 0 0 []) = 0 ∧ live.mig.waiters = [] ∧
    (let s := withPage 0 (page0 (some 0) 0) [(0, .low)] live
     targetStatus s 0 8 = 0 ∧ unready (settleRange 0 8 s) true 0 8 ≠ []) := by
  decide +kernel
/-- Tile memory keeps nobody waiting. -/
theorem witness_TargetEffects_clear (m : Msg) :
    (∀ w : Bool, unready (arrived m live) w 0xE0001FFFFF8 8 = []) ∧
    waitsBehind (arrived m live) (waitTiles (some (true, 0xE0001FFFFF8, 8))) = false ∧
    settleRange 0xE0001FFFFF8 8 (arrived m live) = arrived m live := by
  refine ⟨fun w => ?_, ?_, ?_⟩ <;> rfl
/-- A sub-reply that joins one that is ready, and one with none to join. -/
theorem witness_TargetEffects_joined :
    let m := txnMsg 2 0xE0001FFFFF8 7 0 (bytesOfNat 8 1)
    let ready : Msg := ⟨0, 0, 3, 0, 1, 0, 0, [], .reply 5 [⟨1, 0, 7, []⟩]⟩
    joinable live m 5 3 16 = none ∧
    joinable { live with ick := { live.ick with outbox := [ready] } } m 5 3 16 = some ready := by
  decide +kernel
/-- A fabric management message, and a message of a reserved KIND. -/
theorem witness_TargetEffects_kinds (s : State) (h : s.txn.flows = []) (hd : moduleId s = 0) :
    Arrives { txnMsg 0 0 0 0 [] with kind := 3 } 3 s ∧ 3 < ({ txnMsg 0 0 0 0 [] with kind := 4 } : Msg).kind :=
  ⟨arrives_fresh _ 3 s h hd.symm rfl, by decide⟩
theorem witness_TargetEffects_arrives (ttype addr lenm1 aop : Nat) (d : List Byte) :
    Arrives (txnMsg ttype addr lenm1 aop d) 1 live ∧ (txnMsg ttype addr lenm1 aop d).body = .txn ⟨ttype, 0, 0, addr, lenm1, aop⟩ d :=
  ⟨arrives_live _ rfl rfl, rfl⟩

/-- The last tag held for a use. -/
def tagAt (ttype : Nat) (use : TagUse) (timedOut : Bool) : State :=
  { wideAt (some { xfer with issued := 1, rowsIn := [(0, List.replicate 16 (0, false))] }) none with
    txn := { Txn.reset with tags := [(131071, ⟨ttype, 9, 0, 0, 16, 0, use, timedOut⟩)] } }
def sub0 : SubReply := ⟨131071, 3, 15, List.replicate 16 7⟩

theorem witness_ReplyEffects :
    (∀ x ∈ [(1, TagUse.rowRead (wideChan 0).val 0 0 0), (8, .pnotice), (2, .rowWrite (wideChan 0).val 0 0), (3, .rop 4)],
      (mfind (tagAt x.1 x.2 false).txn.tags sub0.tag).map (fun o => (o.ttype, o.use, o.timedOut)) = some (x.1, x.2, false) ∧
      (tagAt x.1 x.2 false).txn.deferred = [] ∧ freeTag (tagAt x.1 x.2 false) = some 0 ∧
      (tagAt x.1 x.2 false).txn.tags.Pairwise (fun a b => a.1 < b.1) ∧
      ((tagAt x.1 x.2 false).chan (wideChan 0)).active.map (fun y => mfind y.rowsIn 0)
        = some (some (List.replicate 16 (0, false)))) ∧
    sub0.data ≠ [] ∧ mfind live.txn.tags sub0.tag = none ∧ (bytesOfNat 8 5).length = 8 ∧
    ((mfind (tagAt 8 .pnotice true).txn.tags 131071).map (·.timedOut)) = some true := by
  decide +kernel
theorem witness_ReplyEffects_arrives (ttype n : Nat) (use : TagUse) : Arrives (replyMsg ttype sub0) 1 (tagAt n use false) ∧
    Arrives (txnMsg 6 0 7 0 (bytesOfNat 8 5)) 1 (tagAt n use false) := by
  have h : moduleId (tagAt n use false) = moduleId live := rfl
  have z : moduleId live = 0 := by decide +kernel
  exact ⟨arrives_fresh _ _ _ rfl (h.trans z).symm rfl, arrives_fresh _ _ _ rfl (h.trans z).symm rfl⟩

/-- Vesper's remote operation on an address and a module. -/
def ropAt (addr status : Nat) : State := setPair 5 txnPage 0x110 addr (setWord 5 txnPage 0x12C status live)

theorem witness_RemoteOperations :
    reaches .vesper live = true ∧ State.reset.power.meridian ≠ 2 ∧
    (bitOf (rawWord (ropAt 0 1) 5 txnPage 0x12C) 0 = true ∧ bitOf (rawWord (ropAt 0 0) 5 txnPage 0x12C) 0 = false) ∧
    (∀ n ∈ [(0 : Nat), 6, 7, 10], ¬ ((1 ≤ bitsOf n 3 0 ∧ bitsOf n 3 0 ≤ 5) ∨ bitsOf n 3 0 = 8 ∨ bitsOf n 3 0 = 9)) ∧
    bitsOf (rawPair (ropAt (2 ^ 58) 0) 5 txnPage 0x110) 63 58 = 1 ∧
    (let a := rawPair (ropAt 0xE0001FFFFF8 0) 5 txnPage 0x110
     bitsOf a 63 58 = 0 ∧ bitsOf a 57 44 = moduleId live ∧ a % 2 ^ 44 % 8 = 0 ∧ targetStatus (ropAt 0xE0001FFFFF8 0) (a % 2 ^ 44) 8 = 0) ∧
    bitsOf (rawPair (ropAt 9 0) 5 txnPage 0x110) 57 44 = 0 ∧ rawPair (ropAt 9 0) 5 txnPage 0x110 % 2 ^ 44 % 8 ≠ 0 ∧
    (bitsOf (rawPair (ropAt (16383 * 2 ^ 44) 0) 5 txnPage 0x110) 57 44 = 16383 ∧ freeTag (ropAt (16383 * 2 ^ 44) 0) = some 0) ∧
    ((withTask task).core 0).live = true ∧ ((withTask task).core 0).sched.task = some task ∧ task.run ≠ .check ∧
    bitOf (rawWord (withTask task) (reqBank (.core 0)) txnPage 0x12C) 0 = false ∧ (live.core 0).live = false ∧
    bitsOf (rawPair (withTask task) (reqBank (.core 0)) txnPage 0x110) 63 58 = 0 ∧
    (∀ m ∈ [0, 9], let b := entryBank 1023
      let s := setWord b txnPage 0x144 (2 ^ 31) (setWord b txnPage 0x154 (2 ^ 31 + m) live)
      bitOf (rawWord s b txnPage 0x144) 31 = true ∧ rawPair s b txnPage 0x148 ≤ (objGet s 0).toNat ∧
      bitOf (rawWord s b txnPage 0x154) 31 = true ∧ bitsOf (rawWord s b txnPage 0x154) 13 0 = m ∧
      ∀ k ∈ [1, 2, 3], bitOf (rawWord s b txnPage (0x154 + 4 * k)) 31 = false) ∧
    bitOf (rawWord live (entryBank 1023) txnPage 0x144) 31 = false := by
  decide +kernel
/-- An atomic on tile memory waits for nothing; one on a tile that is not ready waits. -/
theorem witness_RemoteOperations_waits :
    (let s := ropAt 0xE0001FFFFF8 0
     let u := setRopStat (reqCode .vesper) 1 0 (unsampleReq .vesper s)
     asleepAt u 0xE0001FFFFF8 = none ∧ settleRange 0xE0001FFFFF8 8 u = u ∧ unready u true 0xE0001FFFFF8 8 = [] ∧
     waitsBehind u (waitTiles (some (true, 0xE0001FFFFF8, 8))) = false) ∧
    (let s := withPage 0 (page0 (some 0) 0) [(0, .low)] (ropAt 0 0)
     let u := setRopStat (reqCode .vesper) 1 0 (unsampleReq .vesper s)
     targetStatus s 0 8 = 0 ∧ unready (settleRange 0 8 u) true 0 8 ≠ []) := by
  decide +kernel

/-! ### Hypotheses: reliability and the host interface -/

/-- A logbook entry of a kind, its class and index. -/
def bookEntry (kind cls index : Nat) : LogEntry := ⟨0, 0, 0, kind, cls, index, 0, 0, 0⟩

/-- The state with the reliability block, Vesper or power changed. -/
def relAt (f : Rel → Rel) : State := { live with rel := f live.rel }
def vesperAt (f : Vesper → Vesper) : State := { live with vesper := f live.vesper }
def powerAt (f : Power → Power) : State := { live with power := f live.power }

/-- A counted entry that is the last one needed; an uncounted one; a waiting report. -/
theorem witness_LogbookEffects :
    (let s := setWord 0 relPage 0x108 1 (relAt (fun r => { r with toWrite := [bookEntry 1 0 0] }))
     s.rel.toWrite = bookEntry 1 0 0 :: [] ∧ s.rel.nextSeq < 524288 ∧ (bookEntry 1 0 0).hours = s.power.hours ∧
     (∀ d ∈ [0, 1, 2, 3], withdrawn s 0 d = false) ∧ s.rel.withdrawn = [] ∧
     fieldOf s 0 relPage 0x108 7 0 ≤ (s.rel.logbook ++ s.rel.keptEntries).countP (counts s 0 0) + 1) ∧
    (bookEntry 7 0 0).kind ≠ 1 ∧ (bookEntry 7 0 0).kind ≠ 2 ∧ (bookEntry 7 0 0).kind ≠ 6 ∧ (bookEntry 5 0 0).kind = 5 ∧
    live.rel.toWrite = [] ∧ live.vesper.receiver = none ∧
    (vesperAt (fun v => { v with receiver := some (.smbus, 8) })).vesper.receiver = some (.smbus, 8) ∧
    (relAt (fun r => { r with reports := [⟨3, 0, 1, none, 0, 0⟩] })).rel.reports = (⟨3, 0, 1, none, 0, 0⟩ : Report) :: [] := by
  decide +kernel

/-- A full logbook, and one with too little room for an entry of kind 5. -/
theorem witness_LogbookEffects_full : ∀ n ∈ [520192, 520193, 524287, 524288],
    (relAt (fun r => { r with nextSeq := n, toWrite := [bookEntry 5 0 0] })).rel.nextSeq = n ∧
    (relAt (fun r => { r with nextSeq := n, toWrite := [bookEntry 5 0 0] })).rel.toWrite = bookEntry 5 0 0 :: [] := by
  decide +kernel

/-- Core 0 in a field-test state, in service, with a task or none. -/
def testAt (n : Nat) (k : Option Task) : State :=
  setWord 0 relPage 0x130 15 (core0 (fun x => { x with sched := { x.sched with task := k } })
    (relAt (fun r => { r with ftState := [(0, n)] })))

theorem witness_FieldTestEffects :
    (∀ n ∈ [0, 1, 2, 3], ftOf (testAt n none) 0 = n) ∧ inService (testAt 0 none) 0 = true ∧ inService live 3 = false ∧
    ((testAt 1 none).core 0).sched.task = none ∧ (testAt 1 none).power.meridian = 2 ∧ (testAt 1 none).power.gated = [] ∧
    (testAt 1 none).rel.ckpt = [] ∧ ((testAt 1 (some task)).core 0).sched.task ≠ none ∧
    (bitOf (1 : W32).toNat (0 : CoreId).val = true ∧ mayCheckpoint (testAt 2 (some task)) (.core 0) 0 = true) ∧
    (∀ d : CoreId, bitOf (0 : W32).toNat d.val = false) ∧ (∀ d : CoreId, mayCheckpoint live .vesper d = false) ∧
    mayWriteJob live .vesper 16383 = true ∧ mayWriteJob live (.core 0) 0 = false := by
  decide +kernel

/-- Port 1 changed. -/
def hostAt (f : HPort → HPort) (s : State := live) : State := modHost 1 f s

/-- Function 64 of port 1 with features 0 to 4 accepted and offered, FEATOK set. -/
def feats (s : State) : State :=
  setWord 0 (funcPage 1 64) 0x140 1 (setWord 0 (funcPage 1 64) 0x120 31 (setWord 0 (funcPage 1 64) 0x100 31 s))

/-- A read of the physical function of port 1 from its base on. -/
def readAt (s : State) (x len : Nat) : WinAccess := ⟨0, x, mwBase s 1 0 + x, len, none, false, none, s.now⟩

/-- The last bytes of unified memory; an unallocated page; the first address past it; memory that waits for Meridian; a window's end,
and a function that is not enabled. -/
theorem witness_WindowEffects :
    (let s := setPair 0 (funcPage 1 0) 0x148 0x2FFFFE00000 live
     mwBase s 1 0 = 0x2FFFFE00000 ∧ mwBase s 1 0 + 0x1FFFF8 + 8 = 0x30000000000 ∧
     accessWaits s 1 (readAt s 0x1FFFF8 8) = false ∧ (s.host 1).windowQ = [] ∧
     fnLive s 1 0 = true ∧ 0x1FFFF8 + 8 ≤ windowSize s 1 0 ∧ 0x30000000000 ≤ mwBase s 1 0 + 0x200000) ∧
    (let s := withPage 0 (page0 none 0) [] live
     firstUnalloc s (mwBase s 1 0 + 0) 8 = none ∧ firstUnalloc live 0 8 = some 0) ∧
    (let s := withPage 0 (page0 (some 0) 0) [(0, .dirty)] (powerAt (fun p => { p with meridian := 4, modState := 2 }))
     waitsMeridian s 0 (inUnified 0 8) = true ∧ accessWaits s 1 (readAt s 0 8) = true) ∧
    fnLive live 1 1 = false ∧ fnLive (hostAt (fun h => { h with numVf := 64 })) 1 64 = true ∧
    windowSize live 1 0 < windowSize live 1 0 - 7 + 8 ∧
    (let s := withPage 0 (page0 (some 0) 1) [(0, .low)] live
     accessWaits { s with mig := { s.mig with faults := [(0, false, 0)] } } 1 (readAt s 0 8) = true) ∧
    (let w : WinAccess := readAt live 0 8
     ((hostAt (fun h => { h with windowQ := [w] })).host 1).windowQ = [w] ∧ w.data = none ∧
     ∀ y ∈ [{ w with data := some [] }], y.data ≠ none) := by
  decide +kernel

theorem witness_DoorbellEffects :
    featureOn live 1 64 0 = false ∧ featureOn (feats live) 1 64 0 = true ∧
    bitOf (funcEntry (setWord (entryBank 255) (funcPage 1 64) 0x164 (2 ^ 31) live) 1 64 255 0x164) 31 = true ∧
    bitOf (funcEntry live 1 64 255 0x164) 31 = false ∧
    (∀ n ∈ [0, 1], ((hostAt (fun h => { h with doorbells := [(5, 1, n)] })).host 1).doorbells = [(5, 1, n)]) ∧
    objGranted live 1 0 131071 = true ∧ objGranted live 1 64 0 = false ∧
    watchSel live 1 64 < watchCount 64 ∧ watchCount 64 ≤ watchSel (setWord 0 (funcPage 1 64) 0x170 64 live) 1 64 ∧
    bitsOf (63 * 2 ^ 18) 28 18 < msixCount 64 ∧ msixCount 64 ≤ bitsOf (64 * 2 ^ 18) 28 18 ∧
    objGranted (setWord (entryBank 64) (funcPage 1 0) 0x198 1 live) 1 64 0 = true ∧
    (let s := setWord (entryBank 63) (funcPage 1 64) 0x174 (2 ^ 31) (feats live)
     63 < watchCount 64 ∧ featureOn s 1 64 1 = true ∧ bitOf (funcEntry s 1 64 63 0x174) 31 = true ∧
     rawPair s (entryBank 63) (funcPage 1 64) 0x178 ≤ (objGet s 0).toNat) ∧ featureOn live 1 64 1 = false ∧
    (let s := hostAt (fun h => { h with msixPending := [64 * 2048 + 63] })
     64 * 2048 + 63 ∈ (s.host 1).msixPending ∧ msixMasked s 1 64 63 = true) ∧
    (let s := setWord 0 (funcPage 1 64 + 1) (63 * 16 + 12) 0
       (hostAt (fun h => { h with numVf := 64, cfgs := [(64, { FnCfg.reset with busMaster := true, msixOn := true })] }))
     msixMasked s 1 64 63 = false ∧ maySend s 1 64 = true) ∧ maySend live 1 64 = false ∧
    (live.host 1).msixPending = [] ∧ (live.host 1).msixSignalled = [] := by
  decide +kernel

theorem witness_AssignmentEffects :
    bitOf (funcWord (feats live) 1 64 0x140) 0 = true ∧ bitOf (funcWord live 1 64 0x140) 0 = false ∧
    acceptable live 1 64 = true ∧ acceptable (setWord 0 (funcPage 1 64) 0x120 1 live) 1 64 = false ∧
    featureOn (feats live) 1 64 4 = true ∧ featureOn live 1 64 4 = false ∧
    (let s := setWord 5 hostPage 0x110 16383 (setWord 5 hostPage 0x114 1 live)
     ctxRange s .vesper = some [16383] ∧ ctxFree s 16383 = true ∧ mayAssign s .vesper 1 0 16383 = true ∧ mayAdmin s .vesper = true ∧
     mayAssign s .vesper 1 64 16383 = false ∧ moveBarred s .vesper 1 64 [16383] = false) ∧
    (let s := setWord (entryBank 16383) 0x009 0x108 (2 ^ 8 + 1) live
     moveBarred s (.func 1 0) 1 64 [16383] = true ∧ mayAssign s (.func 1 0) 1 64 16383 = false ∧
     mayAssign (feats s) (.func 1 0) 1 64 16383 = false) ∧
    ctxRange (setWord 5 hostPage 0x114 0 live) .vesper = none ∧ mayAdmin live (.core 0) = false ∧ pageEn live hostPage = false ∧
    pageEn (setWord 0 hostPage 0x008 1 live) hostPage = true := by
  decide +kernel

theorem witness_HostResets :
    (64 : Fin 65).val ≠ 0 ∧ mfind live.regs (rkey cfgBank 0x009 0x108) = none ∧
    (∀ o ∈ [0x140, 0x148, 0x14C, 0x164, 0x174], mfind live.regs (rkey cfgBank (funcPage 1 64) o) = none) ∧
    (live.host 1).trained = false ∧ ((hostAt (fun h => { h with trained := true })).host 1).trained = true ∧ live.vesper.booting = false ∧
    fnLive live 1 0 = true ∧ fnLive live 1 1 = false ∧ heldWrites live 1 = false ∧ (live.host 1).numVf = 0 ∧
    heldWrites (hostAt (fun h => { h with windowQ := [{ readAt live 0 8 with data := some [1] }] })) 1 = true ∧
    cfgValue live 1 0 .busMaster = some 0 ∧ cfgValue live 1 1 .vfEnable = none ∧ bitOf (1 : W32).toNat 0 = true ∧
    ((hostAt (fun h => { h with enabled := true })).host 1).enabled = true ∧ live.vesper.stage < 8 ∧
    (vesperAt (fun v => { v with stage := 8 })).vesper.stage = 8 ∧ (0x8010 < 0x9000 ∧ 0x8010 % 4096 = 0x010) ∧
    0xFFFFFF < 0x1000000 ∧ 0xFFFFFF % 4 ≠ 0 := by
  decide +kernel

/-! ### Hypotheses: boot, debug, power, management and registers -/

/-- The flash of slot 0: an image of a type, its fields and the digest of its empty body. -/
def image (type : Nat) : Map Byte :=
  let a := imageAt 0 type
  [(a, 0x4B), (a + 1, 0x47), (a + 2, 0x4D), (a + 3, 0x49), (a + 4, BitVec.ofNat 8 type), (a + 5, 0), (a + 6, 1), (a + 7, 0),
    (a + 8, 0), (a + 9, 0), (a + 10, 0), (a + 11, 0), (a + 16, 0), (a + 17, 0), (a + 18, 0), (a + 19, 0)] ++
  (bytesOfNat 32 (Config.sm3 []).toNat).zipIdx.map (fun x => (a + 32 + x.2, x.1))
def bundle : State := vesperAt (fun v => { v with flash := image 1 ++ image 2 ++ image 3, booting := true, stage := 2 })

/-- A key of the flash's erased bytes. -/
def erasedKey : List Byte := List.replicate 64 0xFF

/-- A bundle passes where the ROM holds its key's hash and SM2 accepts its signatures. What SM3 and SM2 answer is the
configuration's (log entry 11), so it stands here as a premise. -/
theorem witness_BootStages_image (h1 : Config.sm3 erasedKey = Config.romHash 0)
    (h2 : ∀ head sig, Config.sm2Verify erasedKey head sig = true) :
    imageCause bundle 0 1 = 0 ∧ imageCause bundle 0 2 = 0 ∧ imageCause bundle 0 3 = 0 := by
  have pass : ∀ type, (imageNat bundle 0 type 0 4 = 0x494D474B ∧ imageNat bundle 0 type 6 2 = 1 ∧
      imageNat bundle 0 type 4 1 = type ∧ imageNat bundle 0 type 5 1 = 0 ∧ 256 ≤ imageMax type ∧
      imageNat bundle 0 type 16 4 = 0) → svnsEqual bundle 0 = true → flashBytes bundle (imageAt 0 type + 64) 64 = erasedKey →
      flashBytes bundle (imageAt 0 type + 32) 32 = bytesOfNat 32 (Config.sm3 []).toNat → imageCause bundle 0 type = 0 := by
    intro type h hs hk hd
    obtain ⟨a, b, c, d, e, f⟩ := h
    have floor : bundle.vesper.floor = 0 := rfl
    have revoked : bundle.vesper.revoked = 0 := rfl
    have body : flashBytes bundle (imageAt 0 type + 256) 0 = [] := rfl
    simp only [imageCause, a, b, c, d, f, hs, hk, hd, h1, h2, floor, revoked, body]
    simp [bitOf]
    omega
  refine ⟨pass 1 (by decide +kernel) (by decide +kernel) (by decide +kernel) rfl,
    pass 2 (by decide +kernel) (by decide +kernel) (by decide +kernel) rfl,
    pass 3 (by decide +kernel) (by decide +kernel) (by decide +kernel) rfl⟩

/-- Copy 0 of the record: its magic, no trim, key 0, and the digest of an identity. -/
def recordOk (seed : BitVec 256) : State := vesperAt (fun v => { v with
  seed := some seed
  flash := [(0x10000, 0x4B), (0x10001, 0x43), (0x10002, 0x46), (0x10003, 0x47), (0x1011C, 0), (0x1011D, 0), (0x1011E, 0),
    (0x1011F, 0), (0x10120, 0)] ++
    (bytesOfNat 32 (Config.sm3 (identityPublicKey seed)).toNat).zipIdx.map (fun x => (0x10018 + x.2, x.1)) })

/-- The record passes where the ROM holds the root key's hash and SM2 accepts its signature (log entry 11). -/
theorem witness_BootStages_record (seed : BitVec 256) (h1 : Config.sm3 (Config.rootKey 0) = Config.romHash 0)
    (h2 : ∀ head sig, Config.sm2Verify (Config.rootKey 0) head sig = true) : recordValid (recordOk seed) 0 = true := by
  have m : natOfBytes (flashBytes (recordOk seed) (recordAt 0) 4) = 0x4746434B := by
    show natOfBytes [0x4B, 0x43, 0x46, 0x47] = 0x4746434B
    decide
  have l : natOfBytes (flashBytes (recordOk seed) (recordAt 0 + 284) 4) = 0 := rfl
  have k : (flashByte (recordOk seed) (recordAt 0 + 288 + 0)).toNat = 0 := rfl
  have d : flashBytes (recordOk seed) (recordAt 0 + 24) 32 =
      bytesOfNat 32 (Config.sm3 (identityPublicKey seed)).toNat := rfl
  have r : (recordOk seed).vesper.revoked = 0 := rfl
  have s : (recordOk seed).vesper.seed = some seed := rfl
  simp only [recordValid, m, l, k, d, r, s, h1, h2]
  simp [bitOf]

/-- A boot state in the flash, in either copy; an empty almanac and logbook. -/
theorem witness_BootStages_flash :
    bootCopy live = none ∧ bootCopy (modBoot (fun v => { v with prefSlot := 1 }) live) = some 1 ∧
    bootCopy (modBoot id (modBoot id live)) = some 0 ∧ lastPlace live = none ∧
    recalibrates 3 = true ∧ recalibrates 4 = false ∧ flashSlots live 0x4100000 32 524288 = [] := by
  decide +kernel
theorem witness_BootStages :
    (∀ n ∈ [0, 1, 2, 3, 4, 5, 6, 7, 8], let x := (vesperAt (fun v => { v with booting := true, stage := n, trial := true })).vesper
      x.booting = true ∧ x.stage = n ∧ x.trial = true) ∧
    (let s := powerAt (fun p => { p with modState := 0, vin := 40000 })
     s.power.modState = 0 ∧ s.power.modEn = true ∧ 40000 ≤ s.power.vin) ∧
    imageCause live 0 1 = 1 ∧ imageCause live 0 2 ≠ 0 ∧ chooseRecord live = none ∧ live.vesper.booting = false ∧
    live.vesper.trial = false ∧ live.vesper.stopped = false := by
  refine ⟨by decide +kernel, by decide +kernel, by decide +kernel, by decide +kernel, ?_, rfl, rfl, rfl⟩
  have h : ∀ k, k = 0 ∨ k = 1 → recordValid live k = false := by
    intro k hk
    have m : (natOfBytes (flashBytes live (recordAt k) 4) == 0x4746434B) = false := by
      rcases hk with rfl | rfl <;> decide +kernel
    simp [recordValid, m]
  simp [chooseRecord, h 0 (.inl rfl), h 1 (.inr rfl)]

/-- An open challenge, and the zeros of a token staged. -/
def challenged : State := vesperAt (fun v => { v with challenge := some (0, 100), cfgOk := true, scopeEnds := [(0, 100)] })

/-- A token of zeros answers a challenge of zero where SM2 accepts it (log entry 11). -/
theorem witness_DebugUnlock_token (h : ∀ digest sig, Config.sm2Verify erasedKey digest sig = true) :
    tokenCause { challenged with vesper := { challenged.vesper with token := mset challenged.vesper.token 23 0 } } = 0 := by
  have t : mset challenged.vesper.token 23 (0 : W32) = [(23, 0)] := rfl
  have b : tokenBytes { challenged with vesper := { challenged.vesper with token := [(23, 0)] } } = List.replicate 96 0 := by
    decide +kernel
  have key : ∀ v : Vesper, v.flash = [] → v.cfgCopy = 0 →
      flashBytes { challenged with vesper := v } (recordAt v.cfgCopy + 148 + 64 * natOfBytes ((List.replicate 96 (0 : Byte)).drop 21 |>.take 1)) 64
        = erasedKey := by
    intro v hf hc
    have z : natOfBytes ((List.replicate 96 (0 : Byte)).drop 21 |>.take 1) = 0 := by decide
    simp only [z, hc, flashBytes, flashByte, hf]
    decide
  rw [t]
  simp only [tokenCause, b]
  rw [key _ rfl rfl]
  simp only [h]
  decide

theorem witness_DebugUnlock :
    firstEnd challenged.vesper.scopeEnds = some 100 ∧ live.vesper.scopeEnds = [] ∧ challenged.vesper.challenge = some (0, 100) ∧
    live.vesper.challenge = none ∧ challengeOf live = none ∧ live.vesper.locked = false ∧
    tokenCause { live with vesper := { live.vesper with token := mset live.vesper.token 23 0 } } = 1 ∧
    (let s := vesperAt (fun v => { v with scopes := 4, rejects := 2, locked := true })
     scopeOpen s 2 = true ∧ s.vesper.eraseUsed = false ∧ s.vesper.rejects = 2 ∧ s.vesper.locked = true ∧
     tokenCause { s with vesper := { s.vesper with token := mset s.vesper.token 23 0 } } = 6) ∧
    scopeOpen live 2 = false ∧
    mfind live.regs (rkey cfgBank 16383 0x008) = none ∧ bitOf (resetOf (regAt 0 0x008).2) 2 = false := by
  decide +kernel

theorem witness_PowerCycle :
    live.power.modEn = true ∧ State.reset.power.modEn = false ∧ State.reset.power.modState = 0 ∧ live.power.modState ≠ 0 ∧
    (powerAt (fun p => { p with modState := 0 })).power.modEn = true ∧
    (powerAt (fun p => { p with modState := 0 })).power.modState = 0 ∧
    (powerAt (fun p => { p with restarting := true })).power.restarting = true ∧ live.power.restarting = false ∧
    (∀ q, ((powerAt (fun p => { p with restarting := true })).host q).windowQ = []) ∧ live.mig.waiters = [] ∧
    live.power.tripped = false := by
  decide +kernel

theorem witness_MeridianPower :
    (∀ n ∈ [0, 1, 2, 3, 4], let p := (powerAt (fun p => { p with meridian := n, modState := 2, refclk156 := n % 2 == 0 })).power
      p.meridian = n ∧ p.modState = 2 ∧ p.refclk156 = (n % 2 == 0)) ∧
    State.reset.power.modState < 2 ∧ quietMeridian live = true ∧ quietMeridian (withTask task) = false ∧ live.mig.pages = [] ∧
    (withPage 0 (page0 (some 0) 0) [] live).mig.pages.all (fun x => x.2.frame.isNone) = false ∧
    live.power.tripped = false ∧
    (let s := powerAt (fun p => { p with tripped := true, rewriting := false, vin := 40000 })
     s.power.tripped = true ∧ s.power.rewriting = false ∧ 40000 ≤ s.power.vin ∧
     sensors s (fun n t => decide (tripLimit n - 10 ≤ t)) = []) ∧
    (powerAt (fun p => { p with tripped := true, rewriting := true })).power.rewriting = true ∧
    (let p := (powerAt (fun p => { p with meridian := 3, stopTo := 4, startAfter := true })).power
     p.meridian = 3 ∧ p.stopTo = 4 ∧ p.startAfter = true) ∧
    (powerAt (fun p => { p with meridian := 3 })).power.stopTo = 0 ∧ live.power.startAfter = false ∧ live.mig.waiters = [] ∧
    live.vesper.held = [] ∧ (∀ q, (live.host q).windowQ = []) ∧
    (live.power.meridian = 2 ∧ fieldOf (setWord 0 powerPage 0x114 1 live) 0 powerPage 0x114 15 0 = 1 ∧
      (live.core 3).sched.task = none ∧ (live.core 3).sched.fieldTest = false ∧ eligibleSlots live 3 = [] ∧
      (live.core 3).sched.waking = false) ∧
    ((3 : CoreId).val ∈ (powerAt (fun p => { p with gated := [3] })).power.gated ∧ withdrawn live 0 (3 : CoreId).val = false) ∧
    ((core0 (fun x => { x with sched := { x.sched with waking := true } }) live).core 0).sched.waking = true := by
  decide +kernel

theorem witness_PowerMeasures :
    State.reset.power.modState = 0 ∧ live.power.modState ≠ 0 ∧ live.power.tripped = false ∧
    (powerAt (fun p => { p with vin36 := 2 })).power.vin36 = 2 ∧ live.mig.waiters = [] ∧ live.power.meridian = 2 ∧ live.power.fcore = live.power.fmax ∧ 875 < live.power.fcore ∧
    (powerAt (fun p => { p with tripped := true, restarting := true })).power.restarting = true ∧
    sensors (powerAt (fun p => { p with temps := List.replicate 16 59 })) (fun n t => decide (tripLimit n ≤ t)) = [] ∧
    sensors (powerAt (fun p => { p with temps := [110] ++ List.replicate 15 0 })) (fun n t => decide (tripLimit n ≤ t)) = 1 :: [] ∧
    (powerAt (fun p => { p with clamped := true })).power.clamped = true ∧ live.power.clamped = false ∧
    live.power.planMin = 0 ∧ (powerAt (fun p => { p with meridian := 4 })).power.meridian ≠ 2 ∧
    bitsOf (1400 : W32).toNat 10 0 = 1400 ∧ bitsOf (1051 : W32).toNat 10 0 = 1051 ∧ bitsOf (1401 : W32).toNat 10 0 = 1401 ∧
    (powerAt (fun p => { p with rewriting := true, tripSensor := 17 })).power.rewriting = true ∧ live.power.rewriting = false := by
  decide +kernel

/-- Vesper up: its record taken, Ethernet and DHCP enabled, a port trained. -/
def up (f : Vesper → Vesper := id) : State :=
  setWord 0 vesperPage 0x1A0 3 (hostAt (fun h => { h with trained := true }) (vesperAt (fun v => f { v with stage := 8 })))

theorem witness_AttestationEffects :
    (∀ path ∈ [Path.ethernet, .smbus, .doe 1], spdmServes (up) path = true ∧ spdmState (up) path = 0) ∧
    (∀ n ∈ [1, 2, 3], spdmState (up (fun v => { v with spdm := [(pathCode .smbus, n)] })) .smbus = n) ∧
    (up (fun v => { v with seed := some 0 })).vesper.seed = some 0 ∧ (up).vesper.seed = none ∧
    spdmServes State.reset .ethernet = false := by
  decide +kernel

/-- A datagram to Vesper's port and an SMBus packet to its address, each the first of a message of PLDM; one of another type. -/
theorem witness_ManagementEffects_packets :
    (∀ n ∈ [0x00, 0x01, 0x05, 0x7F], let d : List Byte := [1, 0, 0, 0, 1, 8, 9, 0xC0, BitVec.ofNat 8 n]
      d.take 4 = [1, 0, 0, 0] ∧ d.length ≤ 1028 ∧ bitOf ((d.drop 4).getD 3 0).toNat 7 = true ∧
      ((d.drop 4).getD 4 0).toNat % 128 ∈ [0x00, 0x01, 0x05, 0x7F]) ∧
    bitsOf (rawWord (up) 0 vesperPage 0x1A8) 15 0 < 2 ^ 16 ∧ (up).vesper.smbAddr = 0 ∧
    (up (fun v => { v with smbAddr := 0x63 })).vesper.smbAddr = (0x63 : BitVec 7).toNat ∧ (0x67 : BitVec 7).toNat < 0x68 ∧
    (0x60 : BitVec 7).toNat = 0x60 := by
  decide +kernel

theorem witness_ManagementEffects :
    etherUp (up) = true ∧ bitOf (rawWord (up) 0 vesperPage 0x1A0) 1 = true ∧ ownIp (up (fun v => { v with ip := 7 })) = 7 ∧
    etherUp live = false ∧ mctpServes (up) .smbus = true ∧ pldmServes (up) .smbus = true ∧ mctpServes (up) (.doe 0) = false ∧
    ([1, 0, 0, 0] ++ List.replicate 1024 (0 : Byte)).length = 1028 ∧ (List.replicate 64 (0 : Byte)).length = 64 ∧
    (∀ id ∈ [1, 20], (sensorReading (up) id).isSome = true) ∧
    (∀ k ∈ [0, 8], bitOf (rawWord (up) 0 k 0x00C) 8 = false) ∧
    ¬ (0xF0000000000 ≤ 0xEFFFFFFFFFF) ∧ 0xF0000FFFFFF < 0xF0001000000 ∧ 0xF0000FFFFFF % 4 ≠ 0 := by
  decide +kernel

theorem witness_FirmwareUpdate :
    (∀ n ∈ [0, 1, 2, 3, 4, 5], (up (fun v => { v with updState := n, updComp := 1 })).vesper.updState = n) ∧
    mctpServes (up (fun v => { v with updState := 3 })) .ethernet = true ∧ (up).vesper.floor ≤ 0 ∧
    (up (fun v => { v with updWritten := [1, 2] })).vesper.updWritten = [1, 2] ∧ (up).vesper.updWritten = [] ∧
    (up (fun v => { v with floor := 1 })).vesper.floor = 1 ∧ compMax 1 = 0x2000000 ∧ compMax 2 = 0x10000 ∧
    (up).vesper.updDone = (up).vesper.updSize ∧ (up (fun v => { v with updSize := 1 })).vesper.updDone ≠ 1 ∧
    imageCause (up) 0 1 ≠ 0 := by
  decide +kernel

/-- The written bundle passes where the one booted would (log entry 11). -/
theorem witness_FirmwareUpdate_passes (h1 : Config.sm3 erasedKey = Config.romHash 0)
    (h2 : ∀ head sig, Config.sm2Verify erasedKey head sig = true) :
    let s := { bundle with vesper := { bundle.vesper with updComp := 1, updSlot := 0 } }
    s.vesper.updComp = 1 ∧ ∀ k, 1 ≤ k → k ≤ 3 → imageCause s s.vesper.updSlot k = 0 := by
  obtain ⟨a, b, c⟩ := witness_BootStages_image h1 h2
  refine ⟨rfl, fun k h3 h4 => ?_⟩
  have e : k = 1 ∨ k = 2 ∨ k = 3 := by omega
  rcases e with rfl | rfl | rfl
  · exact a
  · exact b
  · exact c

/-- A write of the module's first page and its last header, of a disabled, an enabled and a resetting page. -/
theorem witness_HeaderCommands :
    hasHeader 0 = true ∧ hasHeader 0x2810 = true ∧
    (∀ page ∈ [0x003, 0x004, 0x005, 0x008, 0x010], ∀ off ∈ [0x008, 0x010], pageRefusal live page off false = none) ∧
    onMeridian (pageKind 0x005) = false ∧ live.power.meridian = 2 ∧ pageEn live 0x003 = false ∧
    (∀ page ∈ [0x003, 0x004, 0x005, 0x008, redPage, updPage, coreP 3 4], pageEn live page = false ∧
      pageRefusal live page 0x008 false = none) ∧ scopeOpen live 1 = false ∧
    scopeOpen (vesperAt (fun v => { v with scopes := 2 })) 1 = true ∧ bitOf (rawWord live 0 0x005 0x008) 2 = false ∧
    hostDenied live 1 0 0x003 0x008 1 = true ∧
    (let s := feats (hostAt (fun h => { h with numVf := 64 }))
     fnLive s 1 64 = true ∧ heldWrites s 1 = false ∧ hostDenied s 1 64 (0x2000 + 16 * 129) 0x008 1 = false) ∧
    (∀ c : CoreId, (live.core c).ctl.regWait = none) ∧ regPlace 0xF0000003014 = (0x003, 0xF0000003014 % 4096) ∧
    ((core0 (fun x => { x with ctl := { x.ctl with regWait := some ⟨3, 0xF0000003014, false⟩ } }) live).core 0).ctl.regWait
      = some ⟨3, 0xF0000003014, false⟩ ∧
    (let s := setWord 0 0x005 0x008 1 live
     pageEn s 0x005 = true ∧ resetBarred s 0x005 = false ∧ pageRefusal s 0x005 0x008 false = none) ∧
    (((withTask task).core 0).sched.task ≠ none ∧ pageRefusal (withTask task) (coreP 0 0) 0x008 false = none) ∧
    bitOf (rawWord (setWord 0 0x005 0x00C 256 live) 0 0x005 0x00C) 8 = true ∧ bitOf (rawWord live 0 0x005 0x00C) 8 = false := by
  decide +kernel

/-- The first and last registers of the window, an odd address, and each check's first failing place. -/
theorem witness_RegisterWrites :
    (0xF0000000000 ≤ 0xF0000FFFFFC ∧ 0xF0000FFFFFC < 0xF0001000000) ∧ ¬ (0xF0000000000 ≤ 0xEFFFFFFFFFC) ∧
    (reqPlace .vesper 0xF0000008108 = (soPage, 0x108)) ∧
    (reqPlace .vesper 0xF0000010104 = (0x010, 0x104) ∧ onMeridian (pageKind 0x010) = true ∧ shapeOk 0x010 0x104 false = true ∧
     (powerAt (fun p => { p with meridian := 4, modState := 2 })).power.tripped = false) ∧
    shapeOk 0 0x001 false = false ∧ shapeOk 0 0x014 false = true ∧
    coveredFields 0xFFF 0xFFC false = [] ∧ coveredFields 0 0x014 false ≠ [] ∧
    hostDenied live 1 64 0x005 0x014 0 = true ∧ hasHeader 0 = true ∧ fnLive live 1 0 = true ∧ fnLive live 1 64 = false ∧
    heldWrites live 1 = false ∧ heldWrites (hostAt (fun h => { h with windowQ := [{ readAt live 0 8 with data := some [1] }] })) 1 = true ∧
    bitOf (rawWord (setWord 0 0 0x00C 256 live) 0 0 0x00C) 8 = true ∧ bitOf (rawWord live 0 0 0x00C) 8 = false ∧
    (coveredFields 0 0x000 false).all (fieldFixed live 0) = true ∧ debugWord live 0 0x000 = false ∧ reservedCount 0 0x000 = false ∧
    onMeridian (pageKind 0) = false ∧ shapeOk soPage 0x108 true = true := by
  decide +kernel

theorem witness_NumberCodes :
    (fdec 7 0xFFFF).isNan = true ∧ (fdec 7 0xFF80).isNan = false ∧ (fdec 23 0x7F800000).isNan = false ∧ 0x7F800000 < 2 ^ (23 + 9) ∧
    0xFFFF < 2 ^ (7 + 9) ∧ (bfMag 0x7F7F).lt (bfMag 0x7F7F) = false ∧ 0 < (bfMag 0x7F7F).m := by
  decide +kernel

theorem witness_ControlCoreReset :
    live.power.meridian = 2 ∧ (∀ d : CoreId, (live.core d).ctl.regWait = none) ∧
    bitOf (rawWord live 0 (coreP 3 0) 0x00C) 8 = false ∧ pageEn live (coreP 3 0) = false ∧
    (live.core 3).sched.task = none ∧ ((withTask task).core 0).sched.task ≠ none ∧
    hostDenied (feats live) 1 64 (coreP 3 0) 0x008 (putBits 0 1 1 1) = true := by
  decide +kernel

theorem witness_StepRunsFront (i : Instr) : { State.reset with pending := [i] }.pending = i :: [] ∧ State.reset.pending = [] :=
  ⟨rfl, rfl⟩
theorem witness_StepsKeepOrder : step State.reset = .next State.reset ∧ MemSound State.reset := by
  exact ⟨rfl, by unfold MemSound; decide⟩

theorem witness_StepsKeepBounds : step State.reset = .next State.reset ∧ State.reset.mig.pages.Pairwise (fun a b => a.1 < b.1) ∧
    State.reset.mig.tiles.Pairwise (fun a b => a.1 < b.1) ∧ (∀ p, (portOf State.reset p).replay = []) ∧ State.reset.mem = [] := by
  exact ⟨rfl, by decide, by decide, by decide +kernel, rfl⟩
theorem witness_StepsKeepBounds_fits (c : CoreId) (q : Queue) : (queueOf (State.reset.core c) q).length ≤ capacity q := by
  revert c; cases q <;> decide +kernel
theorem witness_StepsKeepBounds_zero (a k : Nat) : memGet State.reset.mem a = 0 ∧ condOf State.reset k = .zero := ⟨rfl, rfl⟩

/-- Every field at its greatest value. -/
theorem witness_FormsAgree :
    reservedWord (21 * 2 ^ 26 + 0x10) = true ∧ reservedWord 0xFF = true ∧
    (15 < 16 ∧ 1 < 2 ∧ 7 < 8 ∧ 2047 < 2048 ∧ 127 < 128 ∧ 16383 < 16384 ∧ 63 < 64 ∧ 255 < 256 ∧
      (List.replicate 240 (0 : Byte)).length ≤ 240) ∧
    (let r : RedMsg := ⟨2 ^ 64 - 1, 15, 63, 4095, 16383, 16383, true, none, 15, 255, 2 ^ 32 - 1, -1024, 32767, [-2 ^ 31, 2 ^ 31 - 1], []⟩
     r.step < 2 ^ 64 ∧ r.type < 16 ∧ r.type ≠ 2 ∧ r.chan < 64 ∧ r.bucket < 4096 ∧ r.src < 16384 ∧ r.home < 16384 ∧ r.cause < 16 ∧
     r.scale < 256 ∧ r.epoch < 2 ^ 32 ∧ r.count < 32768 ∧ -1024 ≤ r.tmax ∧ r.tmax < 1024 ∧ r.map = none ∧ r.wrong = [] ∧
     r.elems.length < 2 ^ 25 ∧ ∀ x ∈ r.elems, if r.wide then -2 ^ 31 ≤ x ∧ x < 2 ^ 31 else -2 ^ 15 ≤ x ∧ x < 2 ^ 15) := by
  decide +kernel

/-! ### Ill-formed terms -/

/-- A flit of no bytes (R336). -/
theorem test_wf_flit : Instr.wf (.dataFlit 0 ⟨[], false, 0, 0⟩) = false := by decide
/-- A message for module 16,384 (R336). -/
theorem test_wf_message : Instr.wf (.read ⟨0, 16384, 0, 0, 1, 0, 0, [], .other []⟩) = false := by decide
/-- A POISON mark beyond a message's last possible flit (R372). -/
theorem test_wf_poison : Instr.wf (.write ⟨0, 0, 0, 0, 1, 0, 0, [18], .other []⟩) = false := by decide
/-- A register page beyond the map (R492). -/
theorem test_wf_page : Instr.wf (.pgDbg .vesper 4096) = false := by decide
/-- A tile and a page beyond the unified range (R236). -/
theorem test_wf_tile : Instr.wf (.tileFault 805306368 false 0) = false := by decide
theorem test_wf_mpage : Instr.wf (.demotionComplete 1572864) = false := by decide
/-- Accesses of no bytes and of more than a PCI Express packet moves. -/
theorem test_wf_read : Instr.wf (.memoryWindowRead 0 0 0 (.read 0)) = false ∧ Instr.wf (.memoryWindowRead 0 0 0 (.read 4097)) = false := by decide
theorem test_wf_write : Instr.wf (.memoryWindowWrite 0 0 0 [] false) = false := by decide
/-- A configuration register beyond the configuration space. -/
theorem test_wf_config : Instr.wf (.configurationRequest 0 0 ⟨.other 4096, none⟩) = false := by decide
/-- A voltage and a temperature that their measures cannot give. -/
theorem test_wf_volts : Instr.wf (.vinSample ⟨65536, true⟩) = false ∧ Instr.wf (.modEnRise ⟨65536, true⟩) = false ∧
    Instr.wf (.inputPowerReturn 65536) = false := by decide
theorem test_wf_temp : Instr.wf (.sensorSample (Vector.replicate 16 128) 0 0) = false := by decide
/-- A trim entry beyond the record's. -/
theorem test_wf_trim : Instr.wf (.stageGnomon [256]) = false := by decide

/-! ### Results -/

/-- The state that a command answers. -/
def after (i : Instr) (s : State) : State := match exec i s with
  | .next t => t
  | .fault _ => s
  | .refused _ => s

/-- What register 5 of core 0 reads after an instruction on registers 1 and 2. -/
def gives (i : Instr) (x y : W64) : W64 := sget ((after i (at_ 0 [(1, x), (2, y)])).core 0) 5

/-- R162, R163: words written out from the formats. ADDI S5, S1, −1; PUSH to DMA with F; JAL with offset −1. -/
theorem test_words : decodeWord 0 0b11111111111100000100010100010001 = .addi 0 5 1 (-1) ∧
    decodeWord 0 0b00011000001100001000000101010000 = .push 0 .dma true 1 2 3 ∧
    decodeWord 0 0b11111111111111111100010101001000 = .jal 0 5 (-1) ∧
    decodeWord 0 0b01010100000000000000000000010000 = .reservedOpcode 0 0b01010100000000000000000000010000 := by decide +kernel
/-- R246: a line of sevens needs planes 0 to 3, one that counts by 37 needs all eight, and each is read back from its planes. -/
theorem test_coded : ∀ x ∈ [(List.replicate 64 (7 : Byte), 3), ((List.range 64).map (fun k => BitVec.ofNat 8 (k * 37)), 7)],
    lineCode x.1 = x.2 ∧ (linePlanes x.1).length = 8 * (x.2 + 1) ∧ decodeLine x.2 (linePlanes x.1) = x.1 := by decide +kernel
/-- R7, R163: arithmetic is modulo 2^64; signed and unsigned orders differ. -/
theorem test_add_wraps : gives (.aluAdd 0 5 1 2) (BitVec.allOnes 64) 2 = 1 := by decide +kernel
theorem test_slt_signed : gives (.aluSlt 0 5 1 2) (BitVec.allOnes 64) 0 = 1 ∧ gives (.aluSltu 0 5 1 2) (BitVec.allOnes 64) 0 = 0 := by
  decide +kernel
theorem test_mulhu : gives (.aluMulhu 0 5 1 2) (BitVec.allOnes 64) (BitVec.allOnes 64) = BitVec.ofNat 64 (2 ^ 64 - 2) := by
  decide +kernel
theorem test_mulh : gives (.aluMulh 0 5 1 2) (BitVec.allOnes 64) 1 = BitVec.allOnes 64 := by decide +kernel
theorem test_sar : gives (.aluSar 0 5 1 2) 0x8000000000000000 67 = 0xF000000000000000 := by decide +kernel
/-- R164. -/
theorem test_div_zero : gives (.aluDiv 0 5 1 2) 7 0 = BitVec.allOnes 64 ∧ gives (.aluRem 0 5 1 2) 7 0 = 7 := by decide +kernel
theorem test_div_signs : gives (.aluDiv 0 5 1 2) (-7) 2 = -3 ∧ gives (.aluRem 0 5 1 2) (-7) 2 = -1 := by decide +kernel
theorem test_div_overflow : gives (.aluDiv 0 5 1 2) 0x8000000000000000 (-1) = 0x8000000000000000 := by decide +kernel
/-- R163: LUS shifts by 16 and fills the low bits. -/
theorem test_lus : sget ((after (.lus 0 5 0x35678) (at_ 0 [(5, 0x1234)])).core 0) 5 = 0x12345678 := by decide +kernel
/-- R158: a write to S0 is discarded. -/
theorem test_s0 : sget ((after (.li 0 0 5) (at_ 0 [])).core 0) 0 = 0 := by decide +kernel
/-- R7: little-endian; a byte that is stored reads back sign-extended. -/
theorem test_store : memGet (after (.sw 0 2 1 0) (at_ 0 [(1, 8), (2, 0x11223380)])).mem (dmemBase 0 + 8) = 0x80 ∧
    memGet (after (.sw 0 2 1 0) (at_ 0 [(1, 8), (2, 0x11223380)])).mem (dmemBase 0 + 11) = 0x11 := by decide +kernel
theorem test_load_sign : sget ((after (.lb 0 5 1 0) { at_ 0 [(1, 8)] with mem := [(dmemBase 0 + 8, 0x80)] }).core 0) 5
    = 0xFFFFFFFFFFFFFF80 := by decide +kernel
/-- R165: a jump out of the page is skipped, and SKIP counts one. -/
theorem test_jal_skipped : ((after (.jal 0 5 (-1)) (at_ 0 [])).core 0).ctl.pc = 1 ∧
    rawWord (after (.jal 0 5 (-1)) (at_ 0 [])) 0 (coreP 0 0) 0x020 = 1 := by decide +kernel
/-- R35, R36: one half of 1; the sum of 1 and 2^-24 is a tie and goes to 1; 1/3 in bf16; the root of 2. -/
theorem test_fp : fmul 23 0x3F000000 0x3F800000 = 0x3F000000 ∧ fadd 23 0x3F800000 0x33800000 = 0x3F800000 ∧
    fdiv 7 0x3F80 0x4040 = 0x3EAB ∧ fsqrt 23 0x40000000 = 0x3FB504F3 := by decide +kernel
/-- R36: infinity less infinity is the one NaN; the greatest value doubled is infinite. -/
theorem test_fp_special : fsub 23 0x7F800000 0x7F800000 = fnan 23 ∧ fadd 23 0x7F7FFFFF 0x7F7FFFFF = 0x7F800000 := by
  decide +kernel
/-- R338: the CRC-32C of the nine digits, the value that its definition is checked by. -/
theorem test_crc : crc32c [0x31, 0x32, 0x33, 0x34, 0x35, 0x36, 0x37, 0x38, 0x39] = 0xE3069283#32 := by decide +kernel
/-- R219: an add to an object is modulo 2^64. -/
theorem test_object_wraps : objGet (after (.soAddWrite .vesper 3) { live with objs := [(0, BitVec.allOnes 64)] }) 0 = 2 := by
  decide +kernel
/-- R388, R390: in mode WAIT an edge is a credit, and pays a debt first. -/
theorem test_edge : (after .stepsyncEdge (bndAt 1 3 0 0)).bnd.credits = 4 ∧ (after .stepsyncEdge (bndAt 1 3 2 0)).bnd.debts = 1 := by
  decide +kernel
/-- R475: a measure below 36.0 V for the third time trips the module. -/
theorem test_trip : (after (.vinSample ⟨35999, true⟩) (powerAt (fun p => { p with vin36 := 2 }))).power.tripped = true := by decide +kernel
/-- R497: a write of EN sets it. -/
theorem test_enable : pageEn (after (.pgEn .vesper 0x003 1) live) 0x003 = true := by decide +kernel
/-- R504: a write of no register is UNASSIGNED, counted once on page 0. -/
theorem test_unassigned : rawWord (after (.registerWrite .vesper 0xF0000000FFC false 0) live) 0 0 0x024 = 1 := by decide +kernel
/-- A command leaves the queue and acts. -/
theorem test_step : (match step { live with pending := [.soValWrite .vesper 7, .ageTick] } with
    | .next t => some (objGet t 0, t.pending)
    | .fault _ => none
    | .refused _ => none) = some (7, [.ageTick]) := by decide +kernel

end Sys2Proof.Tests
end

/-! The corners of division (R164). -/
namespace Sys2Proof.Machine

/-- An instruction that is an ALU operation writes the value of its function to rd. -/
theorem runs_of_aluOp {i : Instr} {c : CoreId} {rd rs1 rs2 : BitVec 6} {cost lat : Nat} {f : W64 → W64 → W64} {s : State}
    {v : W64} (hi : exec i s = .next (aluOp c rd rs1 rs2 cost lat f s)) (h : Issues c s)
    (hv : f (sget (s.core c) rs1.toNat) (sget (s.core c) rs2.toNat) = v) : Runs i s (Result c rd v s) :=
  ⟨_, hi, hv ▸ scalarOp_result s c _ cost lat rd _ h⟩

/-! ### A divisor of zero -/

@[simp] theorem divS_zero (x : W64) : divS x 0 = BitVec.allOnes 64 := if_pos rfl
@[simp] theorem divU_zero (x : W64) : divU x 0 = BitVec.allOnes 64 := if_pos rfl
@[simp] theorem remS_zero (x : W64) : remS x 0 = x := if_pos rfl
@[simp] theorem remU_zero (x : W64) : remU x 0 = x := if_pos rfl

/-! ### The most negative number by −1 -/

theorem eq_intMin_of_toInt (x : W64) (h : x.toInt = -2 ^ 63) : x = BitVec.intMin 64 :=
  BitVec.eq_of_toInt_eq (h.trans (by decide))

theorem eq_neg_one_of_toInt (x : W64) (h : x.toInt = -1) : x = -1 :=
  BitVec.eq_of_toInt_eq (h.trans (by decide))

theorem divS_intMin_neg_one : divS (BitVec.intMin 64) (-1) = BitVec.ofInt 64 (-2 ^ 63) := by decide
theorem remS_intMin_neg_one : remS (BitVec.intMin 64) (-1) = 0 := by decide

/-- Settles O2: each division is an ALU operation, and its function takes the values of R164 at the two corners. -/
theorem divisionCorners : Obligations.DivisionCorners := by
  unfold Obligations.DivisionCorners
  intro c rd rs1 rs2 s h
  refine ⟨fun hy => ⟨?_, ?_, ?_, ?_⟩, fun hx hy => ⟨?_, ?_⟩⟩
  · exact runs_of_aluOp rfl h (by rw [hy, divS_zero])
  · exact runs_of_aluOp rfl h (by rw [hy, divU_zero])
  · exact runs_of_aluOp rfl h (by rw [hy, remS_zero])
  · exact runs_of_aluOp rfl h (by rw [hy, remU_zero])
  · exact runs_of_aluOp rfl h (by rw [eq_intMin_of_toInt _ hx, eq_neg_one_of_toInt _ hy, divS_intMin_neg_one])
  · exact runs_of_aluOp rfl h (by rw [eq_intMin_of_toInt _ hx, eq_neg_one_of_toInt _ hy, remS_intMin_neg_one])

end Sys2Proof.Machine

/-! Reset of the control core (R160, R498): which write of PG_CTRL reaches its block, and what a soft reset keeps. -/
namespace Sys2Proof.Machine

/-! ### Lists of updates -/

/-- A relation that each update of a list keeps holds between the ends. -/
theorem forAll_rel {α : Type} {R : State → State → Prop} {f : α → State → State} (hrefl : ∀ s, R s s)
    (htrans : ∀ {s t u}, R s t → R t u → R s u) :
    ∀ (l : List α) (s : State), (∀ a ∈ l, ∀ t, R t (f a t)) → R s (forAll f l s)
  | [], s, _ => hrefl s
  | a :: l, s, h =>
    htrans (h a List.mem_cons_self s) (forAll_rel hrefl htrans l (f a s) (fun b hb => h b (List.mem_cons_of_mem a hb)))

/-- Updates that leave a state as it is leave it so together. -/
theorem forAll_eq_self {α : Type} {f : α → State → State} {s : State} :
    ∀ l : List α, (∀ a ∈ l, f a s = s) → forAll f l s = s
  | [], _ => rfl
  | a :: l, h => by
    rw [forAll, h a List.mem_cons_self]
    exact forAll_eq_self l (fun b hb => h b (List.mem_cons_of_mem a hb))

theorem setCore_self (c : CoreId) (s : State) : setCore c (s.core c) s = s := by
  have h : s.cores.set c.val (s.core c) c.isLt = s.cores := Vector.set_getElem_self c.isLt
  rw [setCore, h]

theorem modCore_eq_self {c : CoreId} {f : Core → Core} {s : State} (h : f (s.core c) = s.core c) : modCore c f s = s := by
  rw [modCore, h, setCore_self]

/-! ### Bits of a word -/

/-- A field below a bit leaves the bit as it is: the capture's of PG_STATUS and RSTBUSY. -/
theorem bitOf_putBits_capture (w v : Nat) : bitOf (putBits w 5 0 v % 2 ^ 32) 8 = bitOf w 8 := by
  unfold bitOf putBits bitsOf
  congr 1; omega

/-- SRST of PG_CTRL and DBG. -/
theorem bitOf_putBits_srst (w : Nat) : bitOf (putBits w 1 1 1 % 2 ^ 32) 2 = bitOf w 2 := by
  unfold bitOf putBits bitsOf
  congr 1; omega

/-! ### What keeps RSTBUSY -/

/-- The cores, the memory and RSTBUSY of a page are as they were. -/
def KeepsBusy (page : Nat) (s t : State) : Prop :=
  t.cores = s.cores ∧ t.mem = s.mem ∧ bitOf (rawWord t 0 page 0x00C) 8 = bitOf (rawWord s 0 page 0x00C) 8

section
variable {page : Nat} (hp : page < 16384)

theorem KeepsBusy.refl (s : State) : KeepsBusy page s s := ⟨rfl, rfl, rfl⟩

theorem KeepsBusy.trans {s t u : State} (h : KeepsBusy page s t) (k : KeepsBusy page t u) : KeepsBusy page s u := by
  obtain ⟨hc, hm, hb⟩ := h
  obtain ⟨kc, km, kb⟩ := k
  exact ⟨kc.trans hc, km.trans hm, kb.trans hb⟩

theorem KeepsBusy.core {s t : State} (h : KeepsBusy page s t) (d : CoreId) : t.core d = s.core d := by
  rw [State.core, h.1, State.core]

include hp

/-- A register word other than the page's PG_STATUS is stored. -/
theorem setWord_keepsBusy (p o v : Nat) (s : State) (hp' : p < 16384) (ho : o < 4096) (h : p ≠ page ∨ o / 4 ≠ 3) :
    KeepsBusy page s (setWord 0 p o v s) := by
  refine ⟨rfl, rfl, ?_⟩
  rw [rawWord_setWord_other s 0 p o v 0 page 0x00C (by decide) hp' ho hp (by decide) (by omega)]

/-- The capture's fields of a page's PG_STATUS are stored. -/
theorem setCapture_keepsBusy (p v : Nat) (s : State) (hp' : p < 16384) : KeepsBusy page s (setField 0 p 0x00C 5 0 v s) := by
  by_cases h : p = page
  · subst h
    refine ⟨rfl, rfl, ?_⟩
    rw [setField, rawWord_setWord_same, bitOf_putBits_capture]
  · exact setWord_keepsBusy hp p 0x00C _ s hp' (by decide) (Or.inl h)

theorem captureEvent_keepsBusy (p flag : Nat) (cap : List Nat) (s : State) (hp' : p < 16384) :
    KeepsBusy page s (captureEvent p flag cap s) := by
  unfold captureEvent
  split
  · exact KeepsBusy.refl s
  · have word := fun o v t ho h => setWord_keepsBusy hp p o v t hp' ho (Or.inr h)
    exact ((((setCapture_keepsBusy hp p _ s hp').trans (word 0x04C _ _ (by decide) (by decide))).trans
      (word 0x048 _ _ (by decide) (by decide))).trans (word 0x044 _ _ (by decide) (by decide))).trans
      (word 0x040 _ _ (by decide) (by decide))

/-- An event of any page changes no core and no byte, and RSTBUSY of no page. -/
theorem logEvent_keepsBusy (p flag : Nat) (cap : List Nat) (s : State) (hp' : p < 16384) (hf : flag < 8) :
    KeepsBusy page s (logEvent p flag cap s) := by
  obtain ⟨-, -, hbusy⟩ : KeepsBusy page s (loggedRegs p flag cap s) :=
    ((setWord_keepsBusy hp p 0x010 _ s hp' (by decide) (Or.inr (by decide))).trans
      (setWord_keepsBusy hp p (0x020 + 4 * flag) _ _ hp' (by omega) (Or.inr (by omega)))).trans
      (captureEvent_keepsBusy hp p flag cap _ hp')
  refine ⟨logEvent_cores s p flag cap, logEvent_mem s p flag cap, ?_⟩
  rw [logEvent_rawWord, hbusy]

/-- Crossings are flushed: an event of the power page for each. -/
theorem flushCrossings_keepsBusy (ds : List Nat) (s : State) : KeepsBusy page s (flushCrossings ds s) :=
  forAll_rel KeepsBusy.refl KeepsBusy.trans _ s (fun _ _ t => logEvent_keepsBusy hp powerPage 6 _ t (by decide) (by decide))

theorem clearCapture_keepsBusy (s : State) : KeepsBusy page s (clearCapture page s) := by
  refine (setCapture_keepsBusy hp page 0 s hp).trans (forAll_rel KeepsBusy.refl KeepsBusy.trans _ _ (fun k hk t => ?_))
  have : k < 4 := by simp at hk; omega
  exact setWord_keepsBusy hp page _ 0 t hp (by omega) (Or.inr (by omega))

theorem clearCounts_keepsBusy (s : State) : KeepsBusy page s (clearCounts page s) := by
  refine forAll_rel KeepsBusy.refl KeepsBusy.trans _ _ (fun k hk t => ?_)
  have : k < 8 := by simp at hk; omega
  exact setWord_keepsBusy hp page _ 0 t hp (by omega) (Or.inr (by omega))

/-- EN and DBG of a page that acts on no change of EN, FECLR and CNTCLR leave RSTBUSY alone. -/
theorem writeCtrlFields_keepsBusy (v : Nat) (s : State) (hb : page ≠ bndPage) (hi : page ≠ ickPage) :
    KeepsBusy page s (writeCtrlFields page v s) := by
  have field := fun hi lo v t => setWord_keepsBusy hp page 0x008 (putBits (rawWord t 0 page 0x008) hi lo v) t hp (by decide)
    (Or.inr (by decide))
  have clear1 : KeepsBusy page s (if bitOf v 3 then clearCapture page s else s) := by
    split
    · exact clearCapture_keepsBusy hp s
    · exact KeepsBusy.refl s
  have clear2 : ∀ t, KeepsBusy page t (if bitOf v 4 then clearCounts page t else t) := fun t => by
    split
    · exact clearCounts_keepsBusy hp t
    · exact KeepsBusy.refl t
  have en : ∀ t, KeepsBusy page t (writeEn page (bitOf v 0) t) := fun t => by
    rw [writeEn, if_neg hb]
    simp only [hi, false_and, if_false]
    exact field 0 0 _ t
  exact ((clear1.trans (clear2 _)).trans (en _)).trans (field 2 2 _ _)

end

/-! ### A write of PG_CTRL that passes the checks (R504) -/

/-- A write that no function is refused, to a page that is reached, is performed. -/
theorem regWrite_pgCtrl (r : Req) (page v : Nat) (s : State) (hh : hasHeader page = true) (hm : s.power.meridian = 2)
    (hden : ∀ p f, r = .func p f → hostDenied s p f page 0x008 v = false) (hpass : pageRefusal s page 0x008 false = none)
    (hb : page ≠ bndPage) (hr : page ≠ redPage) : regWrite r page 0x008 false v s = writePgCtrl r page (v % 2 ^ 32) s := by
  have hreach : reachPage r page s = (true, s) := by simp [reachPage, hm]
  have hshape : shapeOk page 0x008 false = true := rfl
  have hwait : vesperWaits r page s = false := by simp [vesperWaits, hm]
  have hnone : writeRefused r page 0x008 false v s = none := by
    unfold writeRefused
    cases r with
    | func p f => simp [hshape, hden p f rfl, hreach, hpass]
    | core c => simp [hshape, hreach, hpass]
    | vesper => simp [hshape, hreach, hpass]
  have hcount : reservedCount page 0x008 = false := by simp [reservedCount]
  simp [regWrite, hwait, hnone, hreach, hcount, applyWrite, hb, hr, performWrite, hh, writeHeader]

/-- A function that exists and whose port holds no writes is not kept waiting (R427, R428). -/
theorem postWrite_eq_regWrite (r : Req) (page off : Nat) (wide : Bool) (v : Nat) (s : State)
    (h : ∀ p f, r = .func p f → fnLive s p f = true ∧ heldWrites s p = false) :
    postWrite r page off wide v s = regWrite r page off wide v s := by
  cases r with
  | func p f => simp [postWrite, h p f rfl]
  | core c => rfl
  | vesper => rfl

/-! ### The control page -/

section
variable (c : CoreId)

@[simp] theorem pageKind_control : pageKind (coreP c 0) = .ctl c := by revert c; decide

theorem control_ne (page : Nat) (h : page < 0x100) : coreP c 0 ≠ page := by unfold coreP; omega

theorem hasHeader_control : hasHeader (coreP c 0) = true := by revert c; decide

theorem coveredFields_control : coveredFields (coreP c 0) 0x008 false =
    [⟨0, 0, .rw, 0⟩, ⟨1, 1, .wo, 0⟩, ⟨2, 2, .rw, 0⟩, ⟨3, 3, .wo, 0⟩, ⟨4, 4, .wo, 0⟩] := by revert c; decide

theorem pageRefusal_control (s : State) (h : bitOf (rawWord s 0 (coreP c 0) 0x00C) 8 = false) :
    pageRefusal s (coreP c 0) 0x008 false = none := by
  simp [pageRefusal, coveredFields_control, h, fieldFixed]

/-- The word of a write of SRST. -/
def srstWord (v : W32) : Nat := putBits v.toNat 1 1 1 % 2 ^ 32

theorem srstWord_srst (v : W32) : bitOf (srstWord v) 1 = true := bitOf_putBits _ _ (by decide)

theorem srstWord_dbg (v : W32) : bitOf (srstWord v) 2 = bitOf v.toNat 2 := bitOf_putBits_srst _

/-- A write of SRST to the control page that passes the checks is a write of its PG_CTRL. -/
theorem exec_pgSrst_control (q : Req) (v : W32) (s : State) (hm : s.power.meridian = 2)
    (hbusy : bitOf (rawWord s 0 (coreP c 0) 0x00C) 8 = false)
    (hq : ∀ p f, q = .func p f → fnLive s p f = true ∧ heldWrites s p = false ∧
      hostDenied s p f (coreP c 0) 0x008 (putBits v.toNat 1 1 1) = false) :
    exec (.pgSrst q (coreP c 0) v) s = .next (writePgCtrl q (coreP c 0) (srstWord v) s) := by
  have hpost : ∀ p f, q = .func p f → fnLive s p f = true ∧ heldWrites s p = false := fun p f e => by
    obtain ⟨hlive, hheld, -⟩ := hq p f e
    exact ⟨hlive, hheld⟩
  have hden : ∀ p f, q = .func p f → hostDenied s p f (coreP c 0) 0x008 (putBits v.toNat 1 1 1) = false := fun p f e => by
    obtain ⟨-, -, hd⟩ := hq p f e
    exact hd
  show execPgSrst q (coreP c 0) v s = _
  rw [execPgSrst, postWrite_eq_regWrite _ _ _ _ _ _ hpost, regWrite_pgCtrl q _ _ s (hasHeader_control c) hm hden
    (pageRefusal_control c s hbusy) (control_ne c bndPage (by decide)) (control_ne c redPage (by decide)), srstWord]

theorem writeCtrlFields_control (v : Nat) (s : State) : KeepsBusy (coreP c 0) s (writeCtrlFields (coreP c 0) v s) :=
  writeCtrlFields_keepsBusy (coreP_lt c 0 (by decide)) v s (control_ne c bndPage (by decide)) (control_ne c ickPage (by decide))

theorem resetBarred_control (s : State) : resetBarred s (coreP c 0) = (s.core c).sched.task.isSome := by
  rw [resetBarred, pageKind_control]

theorem skipReset_control (q : Req) (v : Nat) (s : State) (h : (s.core c).sched.task.isSome = true) :
    skipReset q (coreP c 0) v s = logReqskip c s := by
  rw [skipReset, pageKind_control]
  exact if_pos h

/-- With EN clear and no task on the core, SRST is performed (R160, R498). -/
theorem writeSrst_idle (q : Req) (v : W32) (s : State) (hdbg : bitOf v.toNat 2 = false) (hen : pageEn s (coreP c 0) = false)
    (htask : (s.core c).sched.task = none) : writePgCtrl q (coreP c 0) (srstWord v) s = softReset (coreP c 0) s := by
  simp [writePgCtrl, dbgBarred, srstWord_dbg, srstWord_srst, hdbg, hen, resetBarred_control, htask]

/-- While a task runs on the core, SRST is skipped, the other fields act, and REQSKIP is logged (R160, R501). -/
theorem writeSrst_running (q : Req) (v : W32) (s : State) (hdbg : bitOf v.toNat 2 = false)
    (htask : (s.core c).sched.task.isSome = true) :
    writePgCtrl q (coreP c 0) (srstWord v) s = logReqskip c (writeCtrlFields (coreP c 0) (srstWord v) s) := by
  have hrun : ((writeCtrlFields (coreP c 0) (srstWord v) s).core c).sched.task.isSome = true := by
    rw [(writeCtrlFields_control c _ s).core]; exact htask
  simp [writePgCtrl, dbgBarred, srstWord_dbg, srstWord_srst, hdbg, resetBarred_control, htask, skipReset_control c q _ _ hrun]

/-- A skipped SRST changes no core and no byte, and does not set RSTBUSY. -/
theorem writeSrst_running_keepsBusy (v : Nat) (s : State) :
    KeepsBusy (coreP c 0) s (logReqskip c (writeCtrlFields (coreP c 0) v s)) :=
  have hp := coreP_lt c 0 (by decide)
  (writeCtrlFields_control c v s).trans (logEvent_keepsBusy hp (coreP c 0) 4 [] _ hp (by decide))

/-! ### The soft reset of the control page -/

/-- What it does to its core: scalar registers zero, pages OPEN, PC 0. -/
def resetControl (k : Core) : Core := { k with ctl := { k.ctl with sregs := [], pages := [], pc := 0 } }

theorem sget_resetControl (k : Core) (r : Nat) : sget (resetControl k) r = 0 := by
  unfold sget resetControl
  split <;> rfl

theorem resetBlock_control (s : State) : resetBlock (coreP c 0) s = modCore c resetControl s := by
  rw [resetBlock, pageKind_control]
  rfl

/-- The state before the crossings are flushed. -/
def controlReset (s : State) : State := modCore c resetControl (setWord 0 (coreP c 0) 0x00C (2 ^ 8) (resetWords (coreP c 0) s))

theorem controlReset_core_same (s : State) : (controlReset c s).core c = resetControl (s.core c) := modCore_core_same _ _ _

theorem controlReset_core_other (s : State) (d : CoreId) (h : d ≠ c) : (controlReset c s).core d = s.core d :=
  modCore_core_other _ _ _ _ h

theorem controlReset_busy (s : State) : bitOf (rawWord (controlReset c s) 0 (coreP c 0) 0x00C) 8 = true := by
  rw [controlReset, modCore_rawWord, rawWord_setWord_same]
  decide

theorem controlReset_regWait (s : State) (d : CoreId) : ((controlReset c s).core d).ctl.regWait = (s.core d).ctl.regWait := by
  by_cases h : d = c
  · subst h; rw [controlReset_core_same]; rfl
  · rw [controlReset_core_other c s d h]

theorem flushRead_eq_self (page : Nat) (k : Core) (h : k.ctl.regWait = none) : flushRead page k = k := by
  rw [flushRead, h]

/-- With no register read in flight, flushing the crossings adds events of the power page alone. -/
theorem softReset_control (s : State) (h : ∀ d : CoreId, (s.core d).ctl.regWait = none) :
    KeepsBusy (coreP c 0) (controlReset c s) (softReset (coreP c 0) s) := by
  have hflush : ∀ d ∈ allCores, modCore d (flushRead (coreP c 0)) (controlReset c s) = controlReset c s := fun d _ =>
    modCore_eq_self (flushRead_eq_self _ _ ((controlReset_regWait c s d).trans (h d)))
  rw [softReset, resetBlock_control, ← controlReset, forAll_eq_self allCores hflush]
  exact flushCrossings_keepsBusy (coreP_lt c 0 (by decide)) _ _

end

/-! ### Power-on reset -/

theorem core_reset (c : CoreId) : State.reset.core c = Core.reset := by
  simp [State.core, State.reset, vget_eq]

theorem sget_reset (r : Nat) : sget Core.reset r = 0 := by
  unfold sget
  split <;> rfl

/-- Settles O55: a write of SRST reaches its page, where a running task decides between the reset and the skip. -/
theorem controlCoreReset : Obligations.ControlCoreReset := by
  unfold Obligations.ControlCoreReset
  refine ⟨fun c r p a => ?_, fun q c v s hm hbusy hq hdbg hread => ?_⟩
  · rw [core_reset]
    exact ⟨sget_reset r, rfl, rfl⟩
  have hexec := exec_pgSrst_control c q v s hm hbusy hq
  refine ⟨fun hen htask => ?_, fun htask => ?_⟩
  · rw [writeSrst_idle c q v s hdbg hen htask] at hexec
    have hcore := (softReset_control c s hread).core
    obtain ⟨-, hmem, hrst⟩ := softReset_control c s hread
    refine ⟨_, hexec, fun r p => ?_, ?_, hmem, fun d hd => ?_, hrst.trans (controlReset_busy c s)⟩
    · rw [hcore, controlReset_core_same]
      exact ⟨sget_resetControl _ r, rfl⟩
    · rw [hcore, controlReset_core_same]
      rfl
    · rw [hcore, controlReset_core_other c s d hd]
  · rw [writeSrst_running c q v s hdbg (Option.isSome_iff_ne_none.2 htask)] at hexec
    obtain ⟨hcores, hmem, hrst⟩ := writeSrst_running_keepsBusy c (srstWord v) s
    exact ⟨_, hexec, hcores, hmem, hrst.trans hbusy⟩

end Sys2Proof.Machine
